-- ==== Sys2Proof/Word.lean ====
section
/-! DEFINITION. The plain data types of the core: bytes, 32-bit words, and the two groups of registers
that the spec reads as one value (a Block of four registers, a Key of eight). Only the types and their
plainest arithmetic stand here; byte order and the views on these groups are in Machine/Operands.lean. -/

namespace Sys2Proof

/-- A Byte is 8 bits (00_scope.md R11). -/
abbrev Byte := BitVec 8

/-- A Word is 32 bits, the width of every register (00_scope.md R9, R11). -/
abbrev Word := BitVec 32

/-- A group of four 32-bit registers that together hold a 16-byte Block: `w0` is the register at the
group's first offset (10_state.md R20, 20_memory.md R62). -/
structure Block where
  w0 : Word
  w1 : Word
  w2 : Word
  w3 : Word
  deriving DecidableEq, Repr

/-- The eight key registers KEY0 to KEY7, which together hold the 32 key bytes (10_state.md R38). -/
structure Key where
  k0 : Word
  k1 : Word
  k2 : Word
  k3 : Word
  k4 : Word
  k5 : Word
  k6 : Word
  k7 : Word
  deriving DecidableEq, Repr

/-- The Block of sixteen zero bytes. -/
def Block.zero : Block := ⟨0#32, 0#32, 0#32, 0#32⟩

/-- The Key of thirty-two zero bytes. -/
def Key.zero : Key := ⟨0#32, 0#32, 0#32, 0#32, 0#32, 0#32, 0#32, 0#32⟩

/-- Bitwise exclusive or of two Blocks (00_scope.md R10). -/
def Block.xor (a b : Block) : Block :=
  ⟨a.w0 ^^^ b.w0, a.w1 ^^^ b.w1, a.w2 ^^^ b.w2, a.w3 ^^^ b.w3⟩

end Sys2Proof
end

