-- ==== Sys2Proof/Syntax.lean ====
section
/-! DEFINITION. The command set: one constructor of `Instr` per row of spec/opcode_table.json, with the
fields the row's F1 and F2 carry (30_encoding.md R81, R85), and `Op`, the bare names of the rows. -/

namespace Sys2Proof

/-- The names of the 25 rows of the opcode map (30_encoding.md R85). -/
inductive Op where
  | nop | abort
  | gmul | ginv
  | sbox | invsbox
  | keyexp | rotword | subword | rcon
  | encb | decb
  | subbytes | invsubbytes | shiftrows | invshiftrows | mixcolumns | invmixcolumns | addrk
  | pad | unpad
  | cbceInit | cbce | cbcdInit | cbcd
  deriving DecidableEq, Repr

/-- A decoded command. Data operands are implicit (30_encoding.md R83); only the immediates of
30_encoding.md R81 are fields. -/
inductive Instr where
  /-- NOP (47_control.md R250). -/
  | nop
  /-- ABORT (47_control.md R251). -/
  | abort
  /-- GMUL a, b: F1 = a, F2 = b (41_galois_field.md R104). -/
  | gmul (a b : Byte)
  /-- GINV a (41_galois_field.md R105). -/
  | ginv (a : Byte)
  /-- SBOX a (42_sbox.md R124). -/
  | sbox (a : Byte)
  /-- INVSBOX a (42_sbox.md R125). -/
  | invsbox (a : Byte)
  /-- KEYEXP len: the key length the host declares (43_key_schedule.md R144). -/
  | keyexp (len : Byte)
  /-- ROTWORD (43_key_schedule.md R145). -/
  | rotword
  /-- SUBWORD (43_key_schedule.md R146). -/
  | subword
  /-- RCON j: the index of a round constant, 1 to 7 (43_key_schedule.md R147). -/
  | rcon (j : Byte)
  /-- ENCB len: the block length the host declares (44_block_transform.md R170). -/
  | encb (len : Byte)
  /-- DECB len: the block length the host declares (44_block_transform.md R171). -/
  | decb (len : Byte)
  /-- SUBBYTES (44_block_transform.md R172). -/
  | subbytes
  /-- INVSUBBYTES (44_block_transform.md R173). -/
  | invsubbytes
  /-- SHIFTROWS (44_block_transform.md R174). -/
  | shiftrows
  /-- INVSHIFTROWS (44_block_transform.md R175). -/
  | invshiftrows
  /-- MIXCOLUMNS (44_block_transform.md R176). -/
  | mixcolumns
  /-- INVMIXCOLUMNS (44_block_transform.md R177). -/
  | invmixcolumns
  /-- ADDRK (44_block_transform.md R178). -/
  | addrk
  /-- PAD t: the number of data bytes in the block, 0 to 15 (45_padding.md R204). -/
  | pad (t : Byte)
  /-- UNPAD (45_padding.md R205). -/
  | unpad
  /-- CBCE_INIT, with GEN in bit 0 of F1 (46_cbc.md R226). -/
  | cbceInit (gen : Bool)
  /-- CBCE (46_cbc.md R227). -/
  | cbce
  /-- CBCD_INIT (46_cbc.md R228). -/
  | cbcdInit
  /-- CBCD (46_cbc.md R229). -/
  | cbcd
  deriving DecidableEq, Repr

/-- The row of the opcode map that a command belongs to. -/
def Instr.op : Instr → Op
  | .nop => .nop
  | .abort => .abort
  | .gmul _ _ => .gmul
  | .ginv _ => .ginv
  | .sbox _ => .sbox
  | .invsbox _ => .invsbox
  | .keyexp _ => .keyexp
  | .rotword => .rotword
  | .subword => .subword
  | .rcon _ => .rcon
  | .encb _ => .encb
  | .decb _ => .decb
  | .subbytes => .subbytes
  | .invsubbytes => .invsubbytes
  | .shiftrows => .shiftrows
  | .invshiftrows => .invshiftrows
  | .mixcolumns => .mixcolumns
  | .invmixcolumns => .invmixcolumns
  | .addrk => .addrk
  | .pad _ => .pad
  | .unpad => .unpad
  | .cbceInit _ => .cbceInit
  | .cbce => .cbce
  | .cbcdInit => .cbcdInit
  | .cbcd => .cbcd

end Sys2Proof
end

