-- ==== Sys2Proof/WellFormed.lean ====
section
/-! DEFINITION. Which commands the encoding admits: the immediates inside the legal sets of
30_encoding.md R81. Every other field has the legal set "any" or is fixed by its row. -/

namespace Sys2Proof

/-- RCON's index is 1 to 7 and PAD's count is 0 to 15 (30_encoding.md R81, R86); every other immediate
may be any byte. -/
def Instr.wellFormed : Instr → Bool
  | .rcon j => decide (1 ≤ j.toNat) && decide (j.toNat ≤ 7)
  | .pad t => decide (t.toNat ≤ 15)
  | .nop => true
  | .abort => true
  | .gmul _ _ => true
  | .ginv _ => true
  | .sbox _ => true
  | .invsbox _ => true
  | .keyexp _ => true
  | .rotword => true
  | .subword => true
  | .encb _ => true
  | .decb _ => true
  | .subbytes => true
  | .invsubbytes => true
  | .shiftrows => true
  | .invshiftrows => true
  | .mixcolumns => true
  | .invmixcolumns => true
  | .addrk => true
  | .unpad => true
  | .cbceInit _ => true
  | .cbce => true
  | .cbcdInit => true
  | .cbcd => true

end Sys2Proof
end

