-- ==== Sys2Proof/Decode.lean ====
section
/-! DEFINITION. The command word: its fields, the opcode map as a table of masks, the decoder that the
sequencer runs at completion (30_encoding.md R86), and the encoder (30_encoding.md R80). -/

namespace Sys2Proof

/-! ## Fields of a command word (30_encoding.md R80) -/

/-- OP, bits 7:0. -/
def opField (w : Word) : Byte := w.extractLsb' 0 8

/-- F1, bits 15:8. -/
def f1Field (w : Word) : Byte := w.extractLsb' 8 8

/-- F2, bits 23:16. -/
def f2Field (w : Word) : Byte := w.extractLsb' 16 8

/-- RSV, bits 31:24. -/
def rsvField (w : Word) : Byte := w.extractLsb' 24 8

/-! ## The opcode map (30_encoding.md R85) -/

/-- One row of the opcode map: a word belongs to it when `w & mask = pattern`. -/
structure Row where
  op : Op
  pattern : Word
  mask : Word
  deriving DecidableEq, Repr

/-- Whether a word belongs to a row (30_encoding.md R85). -/
def Row.holds (r : Row) (w : Word) : Bool := w &&& r.mask == r.pattern

/-- The opcode map of 30_encoding.md R85, row by row. -/
def opcodeTable : List Row := [
  ⟨.nop,           0x00000000#32, 0xFFFFFFFF#32⟩,
  ⟨.abort,         0x00000001#32, 0xFFFFFFFF#32⟩,
  ⟨.gmul,          0x00000008#32, 0xFF0000FF#32⟩,
  ⟨.ginv,          0x00000009#32, 0xFFFF00FF#32⟩,
  ⟨.sbox,          0x0000000A#32, 0xFFFF00FF#32⟩,
  ⟨.invsbox,       0x0000000B#32, 0xFFFF00FF#32⟩,
  ⟨.keyexp,        0x00000010#32, 0xFFFF00FF#32⟩,
  ⟨.rotword,       0x00000011#32, 0xFFFFFFFF#32⟩,
  ⟨.subword,       0x00000012#32, 0xFFFFFFFF#32⟩,
  ⟨.rcon,          0x00000013#32, 0xFFFF00FF#32⟩,
  ⟨.encb,          0x00000020#32, 0xFFFF00FF#32⟩,
  ⟨.decb,          0x00000021#32, 0xFFFF00FF#32⟩,
  ⟨.subbytes,      0x00000022#32, 0xFFFFFFFF#32⟩,
  ⟨.invsubbytes,   0x00000023#32, 0xFFFFFFFF#32⟩,
  ⟨.shiftrows,     0x00000024#32, 0xFFFFFFFF#32⟩,
  ⟨.invshiftrows,  0x00000025#32, 0xFFFFFFFF#32⟩,
  ⟨.mixcolumns,    0x00000026#32, 0xFFFFFFFF#32⟩,
  ⟨.invmixcolumns, 0x00000027#32, 0xFFFFFFFF#32⟩,
  ⟨.addrk,         0x00000028#32, 0xFFFFFFFF#32⟩,
  ⟨.pad,           0x00000030#32, 0xFFFF00FF#32⟩,
  ⟨.unpad,         0x00000031#32, 0xFFFFFFFF#32⟩,
  ⟨.cbceInit,      0x00000040#32, 0xFFFFFEFF#32⟩,
  ⟨.cbce,          0x00000041#32, 0xFFFFFFFF#32⟩,
  ⟨.cbcdInit,      0x00000042#32, 0xFFFFFFFF#32⟩,
  ⟨.cbcd,          0x00000043#32, 0xFFFFFFFF#32⟩]

/-! ## The decoder (30_encoding.md R86) -/

/-- Why a word is no command. Each of them raises IllegalCommand (60_exceptions.md R267). -/
inductive Illegal where
  /-- RSV is not 0. -/
  | reservedByte
  /-- The word belongs to no row: a reserved OP, or a field that must be 0 and is not. -/
  | noRow
  /-- RCON with an index outside 1 to 7. -/
  | rconIndex
  /-- PAD with more than 15 data bytes. -/
  | padCount
  deriving DecidableEq, Repr

/-- The command of a row with the immediates F1 and F2, after the row's field-value checks. -/
def assemble (op : Op) (f1 f2 : Byte) : Except Illegal Instr :=
  match op with
  | .nop => .ok .nop
  | .abort => .ok .abort
  | .gmul => .ok (.gmul f1 f2)
  | .ginv => .ok (.ginv f1)
  | .sbox => .ok (.sbox f1)
  | .invsbox => .ok (.invsbox f1)
  | .keyexp => .ok (.keyexp f1)
  | .rotword => .ok .rotword
  | .subword => .ok .subword
  | .rcon => if 1 ≤ f1.toNat ∧ f1.toNat ≤ 7 then .ok (.rcon f1) else .error .rconIndex
  | .encb => .ok (.encb f1)
  | .decb => .ok (.decb f1)
  | .subbytes => .ok .subbytes
  | .invsubbytes => .ok .invsubbytes
  | .shiftrows => .ok .shiftrows
  | .invshiftrows => .ok .invshiftrows
  | .mixcolumns => .ok .mixcolumns
  | .invmixcolumns => .ok .invmixcolumns
  | .addrk => .ok .addrk
  | .pad => if 15 < f1.toNat then .error .padCount else .ok (.pad f1)
  | .unpad => .ok .unpad
  | .cbceInit => .ok (.cbceInit (f1.getLsbD 0))
  | .cbce => .ok .cbce
  | .cbcdInit => .ok .cbcdInit
  | .cbcd => .ok .cbcd

/-- The decoder, total on all words: RSV first, then the row, then the row's field-value check
(30_encoding.md R86). -/
def decode (w : Word) : Except Illegal Instr :=
  if rsvField w ≠ 0#8 then .error .reservedByte
  else
    match opcodeTable.find? (fun r => r.holds w) with
    | none => .error .noRow
    | some r => assemble r.op (f1Field w) (f2Field w)

/-- The host's form of the decoder. A command is one 32-bit word, so a number of more bits is none. -/
def decodeTableWord (nbits w : Nat) : Option Instr :=
  let bits := w % 2 ^ nbits
  if bits < 2 ^ 32 then
    match decode (BitVec.ofNat 32 bits) with
    | .ok i => some i
    | .error _ => none
  else none

/-! ## The encoder (30_encoding.md R80, R81, R85) -/

/-- The OP byte of a row, the first column of the opcode map (30_encoding.md R85). -/
def Op.code : Op → Byte
  | .nop => 0x00#8
  | .abort => 0x01#8
  | .gmul => 0x08#8
  | .ginv => 0x09#8
  | .sbox => 0x0A#8
  | .invsbox => 0x0B#8
  | .keyexp => 0x10#8
  | .rotword => 0x11#8
  | .subword => 0x12#8
  | .rcon => 0x13#8
  | .encb => 0x20#8
  | .decb => 0x21#8
  | .subbytes => 0x22#8
  | .invsubbytes => 0x23#8
  | .shiftrows => 0x24#8
  | .invshiftrows => 0x25#8
  | .mixcolumns => 0x26#8
  | .invmixcolumns => 0x27#8
  | .addrk => 0x28#8
  | .pad => 0x30#8
  | .unpad => 0x31#8
  | .cbceInit => 0x40#8
  | .cbce => 0x41#8
  | .cbcdInit => 0x42#8
  | .cbcd => 0x43#8

/-- The F1 byte of a command, by its role (30_encoding.md R81). -/
def Instr.f1 : Instr → Byte
  | .gmul a _ => a
  | .ginv a => a
  | .sbox a => a
  | .invsbox a => a
  | .keyexp len => len
  | .rcon j => j
  | .encb len => len
  | .decb len => len
  | .pad t => t
  | .cbceInit gen => if gen then 0x01#8 else 0x00#8
  | .nop => 0x00#8
  | .abort => 0x00#8
  | .rotword => 0x00#8
  | .subword => 0x00#8
  | .subbytes => 0x00#8
  | .invsubbytes => 0x00#8
  | .shiftrows => 0x00#8
  | .invshiftrows => 0x00#8
  | .mixcolumns => 0x00#8
  | .invmixcolumns => 0x00#8
  | .addrk => 0x00#8
  | .unpad => 0x00#8
  | .cbce => 0x00#8
  | .cbcdInit => 0x00#8
  | .cbcd => 0x00#8

/-- The F2 byte of a command: GMUL's second operand, and 0 for every other command. -/
def Instr.f2 : Instr → Byte
  | .gmul _ b => b
  | .nop => 0x00#8
  | .abort => 0x00#8
  | .ginv _ => 0x00#8
  | .sbox _ => 0x00#8
  | .invsbox _ => 0x00#8
  | .keyexp _ => 0x00#8
  | .rotword => 0x00#8
  | .subword => 0x00#8
  | .rcon _ => 0x00#8
  | .encb _ => 0x00#8
  | .decb _ => 0x00#8
  | .subbytes => 0x00#8
  | .invsubbytes => 0x00#8
  | .shiftrows => 0x00#8
  | .invshiftrows => 0x00#8
  | .mixcolumns => 0x00#8
  | .invmixcolumns => 0x00#8
  | .addrk => 0x00#8
  | .pad _ => 0x00#8
  | .unpad => 0x00#8
  | .cbceInit _ => 0x00#8
  | .cbce => 0x00#8
  | .cbcdInit => 0x00#8
  | .cbcd => 0x00#8

/-- `enc(OP, F1, F2) = F2 << 16 | F1 << 8 | OP`, with RSV = 0 (30_encoding.md R80), written as the four
bytes from the most significant down. -/
def enc (op f1 f2 : Byte) : Word := 0x00#8 ++ f2 ++ f1 ++ op

/-- The word of a command (30_encoding.md R80, R85). -/
def encode (i : Instr) : Word := enc i.op.code i.f1 i.f2

end Sys2Proof
end

