-- ==== Sys2Proof/Config.lean ====
section
/-! DEFINITION. What is fixed for one core and is no state: the identification constants, and the
parameters the spec leaves OPEN (00_scope.md R9), which are opaque constants: no proof can see a value
of one, so a statement that mentions one holds whatever it is. -/

namespace Sys2Proof.Config

/-- The ID register's constant, the ASCII bytes "A256" (10_state.md R22). -/
def idValue : Word := 0x41323536#32

/-- The VERSION register's constant, version 1.0 of the command set (10_state.md R23). -/
def versionValue : Word := 0x00010000#32

/-- The index of the 256-byte window on the platform's bus; `BASE` is OPEN (00_scope.md R9). -/
opaque baseIndex : Nat

/-- BASE, the platform address of the register window: a multiple of 256 (00_scope.md R9). -/
def base : Nat := 256 * baseIndex

/-- How many cycles `LAT(op)` is above its least value 1. It depends on the decoded command only,
`none` being a word that decodes to no command (70_reset_and_hazards.md R320, R322). -/
opaque latencyBeyondFirst : Option Op → Nat

/-- LAT(op), or LAT(illegal) at `none`: at least 1 and finite (70_reset_and_hazards.md R320). -/
def latency (op : Option Op) : Nat := latencyBeyondFirst op + 1

/-- The cycles the RNG provider takes for the request that has the given number of requests before
it: the platform's own, and no function of data the core holds (70_reset_and_hazards.md R320 item 3).
DESIGN CHOICE (log entry 3): the number of requests before it is all it depends on. -/
opaque rngWait : Nat → Nat

/-- The RNG provider's answer to the request that has the given number of requests before it: 16 bytes,
or `none` for Fail (60_exceptions.md R285). A FREE VALUE. -/
opaque rngAnswer : Nat → Option Block

/-- The input of the platform's interrupt controller that `irq` is wired to (60_exceptions.md R280). -/
opaque irqLine : Nat

end Sys2Proof.Config
end

