-- ==== Sys2Proof/Machine/State.lean ====
section
/-! DEFINITION. The machine's state as plain data: the tuple of 10_state.md R46, and beside it the model's
own fields that carry what stands around the core (the bus, the clock, the RNG provider). With it the
reasons a step can stop, and the state after reset (70_reset_and_hazards.md R300). -/

namespace Sys2Proof.Machine

/-- The CTRL register's two interrupt enables; its other bits are reserved (10_state.md R24). -/
structure Ctrl where
  doneie : Bool
  errie : Bool
  deriving DecidableEq, Repr

/-- STATUS.MODE, the state of the CBC chaining state machine (10_state.md R31, 46_cbc.md R222). The
value 3 never occurs, so it is no constructor. -/
inductive Mode where
  /-- 0: no open stream. -/
  | idle
  /-- 1: an encryption stream is open. -/
  | enc
  /-- 2: a decryption stream is open. -/
  | dec
  deriving DecidableEq, Repr

/-- The named errors of 60_exceptions.md R260. -/
inductive ErrorCode where
  /-- 0x01, raised by KEYEXP (60_exceptions.md R261). -/
  | invalidKeyLength
  /-- 0x02, raised by ENCB and DECB (60_exceptions.md R263). -/
  | invalidBlockSize
  /-- 0x03, raised by UNPAD and the final CBCD (60_exceptions.md R264). -/
  | invalidPadding
  /-- 0x04, raised by CBCD_INIT (60_exceptions.md R265). -/
  | invalidCiphertextLength
  /-- 0x05, reserved: no command raises it (60_exceptions.md R262). -/
  | truncatedInput
  /-- 0x06, raised by CBCE_INIT with GEN = 1 (60_exceptions.md R269). -/
  | rngFailure
  /-- 0x10, raised by a word that is no command (60_exceptions.md R267). -/
  | illegalCommand
  /-- 0x11, raised while KEYV = 0 (60_exceptions.md R266). -/
  | noKey
  /-- 0x12, raised by a stream command in the wrong MODE (60_exceptions.md R268). -/
  | sequenceError
  deriving DecidableEq, Repr

/-! ## What the host and the platform do in one clock cycle -/

/-- The width of a bus access (20_memory.md R67). -/
inductive Width where
  | bits8 | bits16 | bits32 | bits64
  deriving DecidableEq, Repr

/-- A read, or a write of a 32-bit value. The data of a write of another width plays no part, because
such an access is refused (20_memory.md R67). -/
inductive AccessKind where
  | read
  | write (v : Word)
  deriving DecidableEq, Repr

/-- One host transaction that reaches the core: its offset in the 256-byte window, its width and what
it does (20_memory.md R61, R65, R66). -/
structure Access where
  off : BitVec 8
  width : Width
  kind : AccessKind
  deriving DecidableEq, Repr

/-- What happens outside the core in one clock cycle: whether the reset input is asserted, and the host
transaction of that cycle, if there is one. -/
structure Cycle where
  reset : Bool
  access : Option Access
  deriving DecidableEq, Repr

/-- A cycle in which nothing happens outside the core. -/
def Cycle.quiet : Cycle := ⟨false, none⟩

/-- What the bus returns for a transaction. -/
inductive Response where
  /-- The value of an accepted read (20_memory.md R65). -/
  | data (v : Word)
  /-- A write without a bus error, rejected or not (20_memory.md R66, 60_exceptions.md R276). -/
  | ack
  /-- The bus error of a refused access; it returns no data (20_memory.md R67). -/
  | busError
  deriving DecidableEq, Repr

/-! ## The state -/

/-- The whole state: every component of 10_state.md R46 from `ctrl` to `pending`, then the model's own
fields from `latLeft` on. -/
structure State where
  /-- CTRL (10_state.md R24). -/
  ctrl : Ctrl
  /-- STATUS.BUSY (10_state.md R26). -/
  busy : Bool
  /-- STATUS.DONE (10_state.md R27). -/
  done : Bool
  /-- STATUS.ERR (10_state.md R28). -/
  err : Bool
  /-- STATUS.REJECT (10_state.md R29). -/
  reject : Bool
  /-- STATUS.KEYV (10_state.md R30). -/
  keyv : Bool
  /-- STATUS.MODE (10_state.md R31). -/
  mode : Mode
  /-- STATUS.TAIL (10_state.md R32). -/
  tail : BitVec 4
  /-- ERRCODE, `none` being 0x00 (10_state.md R33). -/
  errcode : Option ErrorCode
  /-- MSGLEN (10_state.md R35). -/
  msglen : Word
  /-- BLKREM (10_state.md R36). -/
  blkrem : Word
  /-- OUTLEN bits 4:0 (10_state.md R37). -/
  outlen : BitVec 5
  /-- KEY0 to KEY7 (10_state.md R38). -/
  key : Key
  /-- IV0 to IV3 (10_state.md R39). -/
  iv : Block
  /-- CHAIN0 to CHAIN3 (10_state.md R40). -/
  chain : Block
  /-- DIN0 to DIN3 (10_state.md R41). -/
  din : Block
  /-- DOUT0 to DOUT3 (10_state.md R42). -/
  dout : Block
  /-- RK, the round-key file of 60 words (10_state.md R43). -/
  rk : Vector Word 60
  /-- S.pending, the issued and not completed command word (10_state.md R45). -/
  pending : Option Word
  /-- MODEL'S OWN: the cycles left until the running command completes, the current one included. -/
  latLeft : Nat
  /-- MODEL'S OWN: what the host and the platform do in the coming cycles, oldest first; when the list
  is empty every further cycle is quiet. -/
  inputs : List Cycle
  /-- MODEL'S OWN: what the bus returned in the last cycle. -/
  resp : Option Response
  /-- MODEL'S OWN: answers standing at the RNG port, oldest first, `none` being Fail. -/
  rngPort : List (Option Block)
  /-- MODEL'S OWN: how many requests the RNG provider has answered; it indexes `Config.rngAnswer`. -/
  rngDraws : Nat
  deriving DecidableEq, Repr

/-- Why the machine stops with a fault. Both are raised by `Machine.clockCycle` in states that no run
from reset reaches, and by nothing else; no instruction raises one. -/
inductive Fault where
  /-- ERRCODE holds the reserved code 0x05, which the core never writes; such a state "is unreachable
  (fault if it arises)" (93_implementation_defined.md I12). Safe: the machine stops. -/
  | reservedErrorCode
  /-- BUSY = 1 with no pending word, against 10_state.md R45. Safe: the machine stops. -/
  | noPendingCommand
  deriving DecidableEq, Repr

/-- Why the model has no meaning for an instruction. -/
inductive Refusal where
  /-- Raised by an arm of `Machine.exec` whose instruction has no meaning yet; no arm is left so.
  Safe: the machine stops. -/
  | notModelled (mnemonic : String)
  deriving DecidableEq, Repr

/-- The state after reset (70_reset_and_hazards.md R300), every field at the value the spec gives; the
model's own fields are empty (log entry 14). -/
def State.reset : State where
  ctrl := ⟨false, false⟩
  busy := false
  done := false
  err := false
  reject := false
  keyv := false
  mode := .idle
  tail := 0#4
  errcode := none
  msglen := 0#32
  blkrem := 0#32
  outlen := 0#5
  key := Key.zero
  iv := Block.zero
  chain := Block.zero
  din := Block.zero
  dout := Block.zero
  rk := Vector.replicate 60 0#32
  pending := none
  latLeft := 0
  inputs := []
  resp := none
  rngPort := []
  rngDraws := 0

end Sys2Proof.Machine
end

