-- ==== Sys2Proof/Machine/Operands.lean ====
section
/-! DEFINITION. Operands and results: the byte order between registers and Blocks, the 4x4 state matrix
view, and where a command's result goes (20_memory.md R62, 30_encoding.md R82 to R84, 44_block_transform.md
R160). -/

namespace Sys2Proof

/-! ## Bytes of a Word -/

/-- Byte j of a Word, byte 0 in bits 31:24 and byte 3 in bits 7:0 (20_memory.md R62, 43_key_schedule.md
R140). -/
def wordByte (w : Word) (j : Nat) : Byte := w.extractLsb' (24 - 8 * j) 8

/-- The Word of four bytes, the first in bits 31:24. -/
def wordOfBytes (a0 a1 a2 a3 : Byte) : Word := a0 ++ a1 ++ a2 ++ a3

/-! ## Bytes of a Block -/

/-- Register k of a group of four. -/
def Block.word (b : Block) (k : Nat) : Word :=
  match k with
  | 0 => b.w0
  | 1 => b.w1
  | 2 => b.w2
  | _ => b.w3

/-- The group of four with register k replaced. -/
def Block.setWord (b : Block) (k : Nat) (v : Word) : Block :=
  match k with
  | 0 => { b with w0 := v }
  | 1 => { b with w1 := v }
  | 2 => { b with w2 := v }
  | _ => { b with w3 := v }

/-- Byte i of a Block: `b[4k + j] = Wk[31 - 8j : 24 - 8j]` (20_memory.md R62). -/
def Block.byte (b : Block) (i : Nat) : Byte := wordByte (b.word (i / 4)) (i % 4)

/-- The Block whose byte i is `f i`, for i in 0 to 15: the map `wds` of 20_memory.md R62. -/
def Block.ofBytes (f : Nat → Byte) : Block where
  w0 := wordOfBytes (f 0) (f 1) (f 2) (f 3)
  w1 := wordOfBytes (f 4) (f 5) (f 6) (f 7)
  w2 := wordOfBytes (f 8) (f 9) (f 10) (f 11)
  w3 := wordOfBytes (f 12) (f 13) (f 14) (f 15)

/-- The sixteen bytes in order. -/
def Block.bytes (b : Block) : List Byte := (List.range 16).map b.byte

/-- The state matrix entry at row r and column c: `s[r][c] = b[r + 4c]` (44_block_transform.md R160). -/
def Block.entry (b : Block) (r c : Nat) : Byte := b.byte (r + 4 * c)

/-- The Block of a state matrix (44_block_transform.md R160). -/
def Block.ofMatrix (s : Nat → Nat → Byte) : Block := Block.ofBytes fun i => s (i % 4) (i / 4)

/-! ## The eight key registers -/

/-- KEY0 to KEY7 in order. -/
def Key.words (k : Key) : List Word := [k.k0, k.k1, k.k2, k.k3, k.k4, k.k5, k.k6, k.k7]

/-- Key byte `4k + j` is KEY(k) bits `31 - 8j : 24 - 8j` (10_state.md R38, 20_memory.md R62). -/
def Key.byte (k : Key) (i : Nat) : Byte := wordByte (k.words.getD (i / 4) 0#32) (i % 4)

/-- The key with register n replaced. -/
def Key.setWord (k : Key) (n : Nat) (v : Word) : Key :=
  match n with
  | 0 => { k with k0 := v }
  | 1 => { k with k1 := v }
  | 2 => { k with k2 := v }
  | 3 => { k with k3 := v }
  | 4 => { k with k4 := v }
  | 5 => { k with k5 := v }
  | 6 => { k with k6 := v }
  | _ => { k with k7 := v }

namespace Machine

/-! ## Result placement (30_encoding.md R84) -/

/-- A byte result is byte 0 of DOUT, the other bytes are 0, and OUTLEN is 1. -/
def putByte (y : Byte) (s : State) : State :=
  { s with dout := ⟨y.setWidth 32 <<< 24, 0#32, 0#32, 0#32⟩, outlen := 1#5 }

/-- A word result is bytes 0 to 3 of DOUT, the other bytes are 0, and OUTLEN is 4. -/
def putWord (w : Word) (s : State) : State :=
  { s with dout := ⟨w, 0#32, 0#32, 0#32⟩, outlen := 4#5 }

/-- A block result with the number of its leading bytes that carry the result (10_state.md R37). -/
def putBlock (b : Block) (n : BitVec 5) (s : State) : State :=
  { s with dout := b, outlen := n }

end Machine

end Sys2Proof
end

