-- ==== Sys2Proof/Machine/Flags.lean ====
section
/-! DEFINITION. The status and control words, the error codes as numbers, the write-one-to-clear rule and
the interrupt output (10_state.md R24 to R33, 60_exceptions.md R260, R280). The core has no arithmetic
flags (41_galois_field.md R106). -/

namespace Sys2Proof.Machine

/-- The error codes of 60_exceptions.md R260. -/
def ErrorCode.code : ErrorCode → Byte
  | .invalidKeyLength => 0x01#8
  | .invalidBlockSize => 0x02#8
  | .invalidPadding => 0x03#8
  | .invalidCiphertextLength => 0x04#8
  | .truncatedInput => 0x05#8
  | .rngFailure => 0x06#8
  | .illegalCommand => 0x10#8
  | .noKey => 0x11#8
  | .sequenceError => 0x12#8

/-- The number of a mode (10_state.md R31). -/
def Mode.code : Mode → BitVec 2
  | .idle => 0#2
  | .enc => 1#2
  | .dec => 2#2

/-- One bit. -/
def bit (b : Bool) : BitVec 1 := if b then 1#1 else 0#1

/-- STATUS as a word: TAIL 11:8, MODE 6:5, KEYV 4, REJECT 3, ERR 2, DONE 1, BUSY 0, and 0 in the reserved
bits (10_state.md R25). -/
def statusWord (s : State) : Word :=
  0#20 ++ s.tail ++ 0#1 ++ s.mode.code ++ bit s.keyv ++ bit s.reject ++ bit s.err ++ bit s.done
    ++ bit s.busy

/-- CTRL as a word: ERRIE 1, DONEIE 0, and 0 in the reserved bits (10_state.md R24). -/
def ctrlWord (c : Ctrl) : Word := 0#30 ++ bit c.errie ++ bit c.doneie

/-- CTRL after a host write: bits 1 and 0 of the value, the reserved bits ignored (20_memory.md R66). -/
def ctrlOf (v : Word) : Ctrl := ⟨v.getLsbD 0, v.getLsbD 1⟩

/-- ERRCODE as a word: the code in bits 7:0, 0 when there is none (10_state.md R33). -/
def errcodeWord : Option ErrorCode → Word
  | none => 0#32
  | some e => 0#24 ++ e.code

/-- OUTLEN as a word: bits 31:5 read 0 (10_state.md R37). -/
def outlenWord (n : BitVec 5) : Word := 0#27 ++ n

/-- A write-one-to-clear bit after a write of `v` (10_state.md R21). -/
def clearedBy (v : Word) (k : Nat) (flag : Bool) : Bool := flag && !v.getLsbD k

/-- The interrupt output, a level (60_exceptions.md R280). -/
def irq (s : State) : Bool := (s.done && s.ctrl.doneie) || (s.err && s.ctrl.errie)

/-- The level on an input of the platform's interrupt controller as far as this core drives it: irq on
the input IRQ_LINE (60_exceptions.md R280). -/
def platformIrq (line : Nat) (s : State) : Bool := line == Config.irqLine && irq s

end Sys2Proof.Machine
end

