-- ==== Sys2Proof/Machine/Ops.lean ====
section
/-! DEFINITION. The operations every part of the machine shares: the register map with its reads and
writes, the bus access, the issue of a command, its completion with and without an error, the clearing
of an error, the draw from the RNG port, and reset. -/

namespace Sys2Proof.Machine

/-- What a meaning and a step answer. -/
abbrev Result := Host.Outcome State Fault Refusal

/-! ## Completion, errors and their clearing -/

/-- Completion's bookkeeping: BUSY <- 0, DONE <- 1, S.pending <- none (10_state.md R49). -/
def complete (s : State) : State :=
  { s with busy := false, done := true, pending := none, latLeft := 0 }

/-- A command ends without an error, its writes already made in `s` (10_state.md R49). -/
def finish (s : State) : Result := .next (complete s)

/-- TAKING AN ERROR: the writes that are committed instead of the command's own, and then completion's
bookkeeping (60_exceptions.md R270). `s` is the state before any write of the command. -/
def raise (e : ErrorCode) (s : State) : State :=
  complete
    { s with
      err := true
      errcode := some e
      mode := .idle
      blkrem := 0#32
      tail := 0#4
      dout := if e = .invalidPadding then Block.zero else s.dout
      outlen := if e = .invalidPadding then 0#5 else s.outlen }

/-- A command ends with error `e` (60_exceptions.md R270). -/
def fail (e : ErrorCode) (s : State) : Result := .next (raise e s)

/-- The return from an error: ERR <- 0 and ERRCODE <- 0 (10_state.md R28, 60_exceptions.md R271). -/
def clearError (s : State) : State := { s with err := false, errcode := none }

/-! ## The RNG port (60_exceptions.md R285) -/

/-- One request of 16 bytes: the answer standing at the port, or, when none stands there, the free value
of this request; and the state after it. -/
def rngDraw (s : State) : Option Block × State :=
  match s.rngPort with
  | [] => (Config.rngAnswer s.rngDraws, { s with rngDraws := s.rngDraws + 1 })
  | answer :: rest => (answer, { s with rngPort := rest, rngDraws := s.rngDraws + 1 })

/-! ## Issue (10_state.md R48) -/

/-- The cycles from the issue of a word to its completion: LAT of the decoded command, or LAT(illegal),
and with GEN = 1 the provider's time for the request with `draws` before it (70_reset_and_hazards.md
R320, R322). -/
def commandLatency (w : Word) (draws : Nat) : Nat :=
  match decode w with
  | .ok i =>
    Config.latency (some i.op) + (if i = .cbceInit true then Config.rngWait draws else 0)
  | .error _ => Config.latency none

/-- The issue of an accepted command word: S.pending <- v, BUSY <- 1, DONE <- 0 (10_state.md R48). -/
def issue (v : Word) (s : State) : State :=
  { s with
    pending := some v
    busy := true
    done := false
    latLeft := commandLatency v s.rngDraws }

/-- A rejected write changes nothing but STATUS.REJECT <- 1 (60_exceptions.md R276). -/
def rejectWrite (s : State) : State := { s with reject := true }

/-! ## The register map (10_state.md R20) -/

/-- The registers of 10_state.md R20; register k of a group stands at the group's first offset + 4k. -/
inductive Reg where
  | id | version | ctrl | status | errcode | cmd | msglen | blkrem | outlen
  | key (k : Fin 8)
  | iv (k : Fin 4)
  | chain (k : Fin 4)
  | din (k : Fin 4)
  | dout (k : Fin 4)
  deriving DecidableEq, Repr

/-- The offset of a register in the window (10_state.md R20). -/
def Reg.offset : Reg → BitVec 8
  | .id => 0x00#8
  | .version => 0x04#8
  | .ctrl => 0x08#8
  | .status => 0x0C#8
  | .errcode => 0x10#8
  | .cmd => 0x14#8
  | .msglen => 0x18#8
  | .blkrem => 0x1C#8
  | .outlen => 0x20#8
  | .key k => 0x40#8 + BitVec.ofNat 8 (4 * k.val)
  | .iv k => 0x60#8 + BitVec.ofNat 8 (4 * k.val)
  | .chain k => 0x70#8 + BitVec.ofNat 8 (4 * k.val)
  | .din k => 0x80#8 + BitVec.ofNat 8 (4 * k.val)
  | .dout k => 0x90#8 + BitVec.ofNat 8 (4 * k.val)

/-- The 33 registers in increasing offset order. -/
def Reg.all : List Reg :=
  [.id, .version, .ctrl, .status, .errcode, .cmd, .msglen, .blkrem, .outlen]
    ++ (List.finRange 8).map Reg.key ++ (List.finRange 4).map Reg.iv
    ++ (List.finRange 4).map Reg.chain ++ (List.finRange 4).map Reg.din
    ++ (List.finRange 4).map Reg.dout

/-- The register at an offset; `none` is an unmapped slot (10_state.md R20, 20_memory.md R61). -/
def regAt (off : BitVec 8) : Option Reg := Reg.all.find? fun r => r.offset == off

/-- The registers that a host write does not touch and is not rejected at (20_memory.md R66 item 3). -/
def Reg.readOnly : Reg → Bool
  | .id => true
  | .version => true
  | .errcode => true
  | .blkrem => true
  | .outlen => true
  | .chain _ => true
  | .dout _ => true
  | .ctrl => false
  | .status => false
  | .cmd => false
  | .msglen => false
  | .key _ => false
  | .iv _ => false
  | .din _ => false

/-- The value a host read of a register returns; the write-only CMD and KEY return 0 (10_state.md R21,
20_memory.md R65). -/
def readReg (s : State) : Reg → Word
  | .id => Config.idValue
  | .version => Config.versionValue
  | .ctrl => ctrlWord s.ctrl
  | .status => statusWord s
  | .errcode => errcodeWord s.errcode
  | .cmd => 0#32
  | .msglen => s.msglen
  | .blkrem => s.blkrem
  | .outlen => outlenWord s.outlen
  | .key _ => 0#32
  | .iv k => s.iv.word k.val
  | .chain k => s.chain.word k.val
  | .din k => s.din.word k.val
  | .dout k => s.dout.word k.val

/-- A host write to STATUS: the write-one-to-clear rule on DONE, ERR and REJECT; clearing ERR also
writes ERRCODE <- 0 (10_state.md R25, R28). -/
def writeStatus (v : Word) (s : State) : State :=
  let s := { s with done := clearedBy v 1 s.done, reject := clearedBy v 3 s.reject }
  if v.getLsbD 2 then clearError s else s

/-- A host write that replaces a register: MSGLEN, KEY, IV and DIN (20_memory.md R66 item 6). -/
def replaceReg (r : Reg) (v : Word) (s : State) : State :=
  match r with
  | .msglen => { s with msglen := v }
  | .key k => { s with key := s.key.setWord k.val v }
  | .iv k => { s with iv := s.iv.setWord k.val v }
  | .din k => { s with din := s.din.setWord k.val v }
  | .id => s
  | .version => s
  | .ctrl => s
  | .status => s
  | .errcode => s
  | .cmd => s
  | .blkrem => s
  | .outlen => s
  | .chain _ => s
  | .dout _ => s

/-- A host write to a mapped register, in the order of precedence of 20_memory.md R66. -/
def writeReg (r : Reg) (v : Word) (s : State) : State :=
  if r = .status then writeStatus v s
  else if r = .ctrl then { s with ctrl := ctrlOf v }
  else if r.readOnly then s
  else if s.busy then rejectWrite s
  else if r = .cmd then (if s.err then rejectWrite s else issue v s)
  else replaceReg r v s

/-! ## Bus accesses -/

/-- A host read at an offset; an unmapped slot reads 0 (20_memory.md R61, R65). -/
def hostRead (s : State) (off : BitVec 8) : Word :=
  match regAt off with
  | some r => readReg s r
  | none => 0#32

/-- A host write at an offset; a write to an unmapped slot has no effect (20_memory.md R61, R66). -/
def hostWrite (off : BitVec 8) (v : Word) (s : State) : State :=
  match regAt off with
  | some r => writeReg r v s
  | none => s

/-- The core accepts only 32-bit accesses at offsets that are multiples of 4 (20_memory.md R67). -/
def Access.accepted (a : Access) : Bool := a.width == .bits32 && a.off.toNat % 4 == 0

/-- What a cycle's host transaction does to the core, and the bus's response to it; a refused access
changes nothing and gets a bus error (20_memory.md R65 to R67). -/
def hostPhase (a : Option Access) (s : State) : State :=
  match a with
  | none => { s with resp := none }
  | some a =>
    if a.accepted then
      match a.kind with
      | .read => { s with resp := some (.data (hostRead s a.off)) }
      | .write v => { hostWrite a.off v s with resp := some .ack }
    else { s with resp := some .busError }

/-- The transaction that a bus access at a platform address presents to the core: none outside the
window, and at offset `a - BASE` inside it (20_memory.md R61). -/
def presented (addr : Nat) (width : Width) (kind : AccessKind) : Option Access :=
  if Config.base ≤ addr ∧ addr < Config.base + 256 then
    some ⟨BitVec.ofNat 8 (addr - Config.base), width, kind⟩
  else none

/-! ## Reset and the input of a cycle -/

/-- The reset event: every piece of the core's state takes its reset value, whatever ran is abandoned,
and what stands outside the core (the coming cycles, the RNG provider) is not reached
(70_reset_and_hazards.md R300, R302). -/
def resetEvent (s : State) : State :=
  { State.reset with inputs := s.inputs, rngPort := s.rngPort, rngDraws := s.rngDraws }

/-- What happens outside the core in this cycle. -/
def cycleInput (s : State) : Cycle := s.inputs.headD Cycle.quiet

/-- The state with this cycle's input taken from the list. -/
def popInput (s : State) : State := { s with inputs := s.inputs.tail }

/-- The state in which the word stands issued and due in the very next cycle, which is quiet outside the
core: what an accepted CMD write leads to (10_state.md R48). ERR and ERRCODE are 0, since a command is
accepted only then. -/
def loadPending (w : Word) (s : State) : State :=
  { s with
    pending := some w
    busy := true
    done := false
    err := false
    errcode := none
    latLeft := 1
    inputs := Cycle.quiet :: s.inputs }

end Sys2Proof.Machine
end

