-- ==== Sys2Proof/Machine/GaloisField.lean ====
section
/-! DEFINITION. Arithmetic in GF(2^8) modulo x^8 + x^4 + x^3 + x + 1, and GMUL and GINV
(41_galois_field.md R100 to R105). -/

namespace Sys2Proof

/-- The product by x = 02: shift left, and reduce by 0x1B when bit 7 was 1 (41_galois_field.md R101). -/
def xtime (a : Byte) : Byte := (a <<< 1) ^^^ (if a.getLsbD 7 then 0x1B#8 else 0x00#8)

/-- The loop of 41_galois_field.md R102 with `n` steps to go, at bit `k` of `b`, with the sum `r` and the
shifted operand `p` so far. -/
def gmulLoop (b : Byte) : (n k : Nat) → (r p : Byte) → Byte
  | 0, _, r, _ => r
  | n + 1, k, r, p => gmulLoop b n (k + 1) (if b.getLsbD k then r ^^^ p else r) (xtime p)

/-- Multiplication in GF(2^8) by shift and add (41_galois_field.md R102). -/
def gmul (a b : Byte) : Byte := gmulLoop b 8 0 0x00#8 a

/-- The multiplicative inverse in the closed form `a^254`, which is 0 at 0 (41_galois_field.md R103):
the product of a^2, a^4, a^8, a^16, a^32, a^64 and a^128. -/
def inverse (a : Byte) : Byte :=
  let a2 := gmul a a
  let a4 := gmul a2 a2
  let a8 := gmul a4 a4
  let a16 := gmul a8 a8
  let a32 := gmul a16 a16
  let a64 := gmul a32 a32
  let a128 := gmul a64 a64
  gmul a2 (gmul a4 (gmul a8 (gmul a16 (gmul a32 (gmul a64 a128)))))

namespace Machine

/-- GMUL: multiply two bytes (41_galois_field.md R104). -/
def execGmul (a b : Byte) (s : State) : Result := finish (putByte (gmul a b) s)

/-- GINV: the multiplicative inverse of a byte (41_galois_field.md R105). -/
def execGinv (a : Byte) (s : State) : Result := finish (putByte (inverse a) s)

end Machine

end Sys2Proof
end

