-- ==== Sys2Proof/Machine/KeySchedule.lean ====
section
/-! DEFINITION. The AES-256 key schedule, and KEYEXP, ROTWORD, SUBWORD and RCON (43_key_schedule.md R140 to
R147). -/

namespace Sys2Proof

/-- The bytes of a Word rotated one place left (43_key_schedule.md R140). -/
def rotword (w : Word) : Word := (w <<< 8) ||| (w >>> 24)

/-- The S-box on each byte of a Word (43_key_schedule.md R141). -/
def subword (w : Word) : Word :=
  wordOfBytes (sbox (wordByte w 0)) (sbox (wordByte w 1)) (sbox (wordByte w 2)) (sbox (wordByte w 3))

/-- RCON[j] for j in 1 to 7 (43_key_schedule.md R142). -/
def rconByte (j : Nat) : Byte :=
  [0x01#8, 0x02#8, 0x04#8, 0x08#8, 0x10#8, 0x20#8, 0x40#8].getD (j - 1) 0x00#8

/-- The round constant `rcon(j) = RCON[j] << 24` (43_key_schedule.md R142). -/
def rcon (j : Nat) : Word := (rconByte j).setWidth 32 <<< 24

/-- Word i of the expansion from the words before it, i being how many there are
(43_key_schedule.md R143). -/
def nextKeyWord (w : List Word) : Word :=
  let i := w.length
  let t := w.getD (i - 1) 0#32
  let t :=
    if i % 8 = 0 then subword (rotword t) ^^^ rcon (i / 8)
    else if i % 8 = 4 then subword t
    else t
  w.getD (i - 8) 0#32 ^^^ t

/-- The words so far, followed by `n` more. -/
def expandWords : (n : Nat) → List Word → List Word
  | 0, w => w
  | n + 1, w => expandWords n (w ++ [nextKeyWord w])

/-- The 60 words of the expansion as a list: the 8 words of the key and 52 more
(43_key_schedule.md R143). -/
def keyWords (k : Key) : List Word := expandWords 52 k.words

/-- KeyExpansion(k), the round-key file of a key (43_key_schedule.md R143). -/
def keyExpansion (k : Key) : Vector Word 60 := Vector.ofFn fun i => (keyWords k).getD i.val 0#32

namespace Machine

/-- KEYEXP: expand KEY into RK, outside a stream and for a declared length of 32
(43_key_schedule.md R144). -/
def execKeyexp (len : Byte) (s : State) : Result :=
  if s.mode ≠ .idle then fail .sequenceError s
  else if len ≠ 32#8 then fail .invalidKeyLength s
  else finish { s with rk := keyExpansion s.key, keyv := true }

/-- ROTWORD: RotWord of DIN0 (43_key_schedule.md R145). -/
def execRotword (s : State) : Result := finish (putWord (rotword s.din.w0) s)

/-- SUBWORD: SubWord of DIN0 (43_key_schedule.md R146). -/
def execSubword (s : State) : Result := finish (putWord (subword s.din.w0) s)

/-- RCON: one round constant; an index outside 1 to 7 is illegal (43_key_schedule.md R147). -/
def execRcon (j : Byte) (s : State) : Result :=
  if 1 ≤ j.toNat ∧ j.toNat ≤ 7 then finish (putWord (rcon j.toNat) s)
  else fail .illegalCommand s

end Machine

end Sys2Proof
end

