-- ==== Sys2Proof/Machine/BlockTransform.lean ====
section
/-! DEFINITION. The round transformations on the state matrix, the two ciphers, and ENCB, DECB and the
seven primitive round commands (44_block_transform.md R160 to R179). -/

namespace Sys2Proof

/-! ## Round transformations -/

/-- The S-box on every byte (44_block_transform.md R161). -/
def subBytes (b : Block) : Block := Block.ofBytes fun i => sbox (b.byte i)

/-- The inverse S-box on every byte (44_block_transform.md R162). -/
def invSubBytes (b : Block) : Block := Block.ofBytes fun i => invSbox (b.byte i)

/-- Row r rotates left by r positions (44_block_transform.md R163). -/
def shiftRows (b : Block) : Block := Block.ofMatrix fun r c => b.entry r ((c + r) % 4)

/-- Row r rotates right by r positions (44_block_transform.md R164). -/
def invShiftRows (b : Block) : Block := Block.ofMatrix fun r c => b.entry r ((c + 4 - r) % 4)

/-- The sum of four products, one row of a matrix times one column of the state. -/
def dot4 (m0 m1 m2 m3 x0 x1 x2 x3 : Byte) : Byte :=
  gmul m0 x0 ^^^ gmul m1 x1 ^^^ gmul m2 x2 ^^^ gmul m3 x3

/-- Row r of the MixColumns matrix times a column (44_block_transform.md R165). -/
def mixRow (r : Nat) (x0 x1 x2 x3 : Byte) : Byte :=
  match r with
  | 0 => dot4 0x02#8 0x03#8 0x01#8 0x01#8 x0 x1 x2 x3
  | 1 => dot4 0x01#8 0x02#8 0x03#8 0x01#8 x0 x1 x2 x3
  | 2 => dot4 0x01#8 0x01#8 0x02#8 0x03#8 x0 x1 x2 x3
  | _ => dot4 0x03#8 0x01#8 0x01#8 0x02#8 x0 x1 x2 x3

/-- Row r of the InvMixColumns matrix times a column (44_block_transform.md R166). -/
def invMixRow (r : Nat) (x0 x1 x2 x3 : Byte) : Byte :=
  match r with
  | 0 => dot4 0x0E#8 0x0B#8 0x0D#8 0x09#8 x0 x1 x2 x3
  | 1 => dot4 0x09#8 0x0E#8 0x0B#8 0x0D#8 x0 x1 x2 x3
  | 2 => dot4 0x0D#8 0x09#8 0x0E#8 0x0B#8 x0 x1 x2 x3
  | _ => dot4 0x0B#8 0x0D#8 0x09#8 0x0E#8 x0 x1 x2 x3

/-- Each column times the fixed matrix (44_block_transform.md R165). -/
def mixColumns (b : Block) : Block :=
  Block.ofMatrix fun r c => mixRow r (b.entry 0 c) (b.entry 1 c) (b.entry 2 c) (b.entry 3 c)

/-- Each column times the inverse matrix (44_block_transform.md R166). -/
def invMixColumns (b : Block) : Block :=
  Block.ofMatrix fun r c => invMixRow r (b.entry 0 c) (b.entry 1 c) (b.entry 2 c) (b.entry 3 c)

/-- Round key r is the Block of the words RK[4r] to RK[4r + 3] (10_state.md R43). -/
def roundKey (rk : Vector Word 60) (r : Nat) : Block where
  w0 := rk.toList.getD (4 * r) 0#32
  w1 := rk.toList.getD (4 * r + 1) 0#32
  w2 := rk.toList.getD (4 * r + 2) 0#32
  w3 := rk.toList.getD (4 * r + 3) 0#32

/-- The state xored with round key r (44_block_transform.md R167). -/
def addRoundKey (rk : Vector Word 60) (b : Block) (r : Nat) : Block := b.xor (roundKey rk r)

/-! ## The two ciphers -/

/-- Rounds 1 to r of the encryption, after the initial AddRoundKey (44_block_transform.md R168). -/
def encRounds (rk : Vector Word 60) : (r : Nat) → Block → Block
  | 0, b => b
  | r + 1, b => addRoundKey rk (mixColumns (shiftRows (subBytes (encRounds rk r b)))) (r + 1)

/-- Cipher(b) under RK: MixColumns is absent from round 14 (44_block_transform.md R168). -/
def cipher (rk : Vector Word 60) (b : Block) : Block :=
  addRoundKey rk (shiftRows (subBytes (encRounds rk 13 (addRoundKey rk b 0)))) 14

/-- Rounds r down to 1 of the decryption (44_block_transform.md R169). -/
def decRounds (rk : Vector Word 60) : (r : Nat) → Block → Block
  | 0, b => b
  | r + 1, b => decRounds rk r (invSubBytes (invShiftRows (invMixColumns (addRoundKey rk b (r + 1)))))

/-- InvCipher(b) under RK (44_block_transform.md R169). -/
def invCipher (rk : Vector Word 60) (b : Block) : Block :=
  addRoundKey rk (decRounds rk 13 (invSubBytes (invShiftRows (addRoundKey rk b 14)))) 0

namespace Machine

/-! ## Cipher commands -/

/-- ENCB: encrypt DIN under RK (44_block_transform.md R170). -/
def execEncb (len : Byte) (s : State) : Result :=
  if s.keyv = false then fail .noKey s
  else if len ≠ 16#8 then fail .invalidBlockSize s
  else finish (putBlock (cipher s.rk s.din) 16#5 s)

/-- DECB: decrypt DIN under RK (44_block_transform.md R171). -/
def execDecb (len : Byte) (s : State) : Result :=
  if s.keyv = false then fail .noKey s
  else if len ≠ 16#8 then fail .invalidBlockSize s
  else finish (putBlock (invCipher s.rk s.din) 16#5 s)

/-! ## Primitive round commands -/

/-- SUBBYTES (44_block_transform.md R172). -/
def execSubbytes (s : State) : Result := finish (putBlock (subBytes s.din) 16#5 s)

/-- INVSUBBYTES (44_block_transform.md R173). -/
def execInvsubbytes (s : State) : Result := finish (putBlock (invSubBytes s.din) 16#5 s)

/-- SHIFTROWS (44_block_transform.md R174). -/
def execShiftrows (s : State) : Result := finish (putBlock (shiftRows s.din) 16#5 s)

/-- INVSHIFTROWS (44_block_transform.md R175). -/
def execInvshiftrows (s : State) : Result := finish (putBlock (invShiftRows s.din) 16#5 s)

/-- MIXCOLUMNS (44_block_transform.md R176). -/
def execMixcolumns (s : State) : Result := finish (putBlock (mixColumns s.din) 16#5 s)

/-- INVMIXCOLUMNS (44_block_transform.md R177). -/
def execInvmixcolumns (s : State) : Result := finish (putBlock (invMixColumns s.din) 16#5 s)

/-- ADDRK: DIN xor IV, so that no round key leaves the core (44_block_transform.md R178). -/
def execAddrk (s : State) : Result := finish (putBlock (s.din.xor s.iv) 16#5 s)

end Machine

end Sys2Proof
end

