-- ==== Sys2Proof/Machine/Padding.lean ====
section
/-! DEFINITION. PKCS#7 padding of one block, and PAD and UNPAD (45_padding.md R202 to R205). -/

namespace Sys2Proof

/-- The first `t` bytes of a Block, and 16 - t bytes of value 16 - t (45_padding.md R202). -/
def padblock (b : Block) (t : Nat) : Block :=
  Block.ofBytes fun i => if i < t then b.byte i else BitVec.ofNat 8 (16 - t)

/-- The pad length of a Block, or `none` when its padding is malformed (45_padding.md R203). -/
def padcheck (b : Block) : Option Nat :=
  let n := (b.byte 15).toNat
  if n < 1 ∨ 16 < n then none
  else if (List.range 16).all (fun i => decide (i < 16 - n) || b.byte i == BitVec.ofNat 8 n) then
    some n
  else none

namespace Machine

/-- PAD: pad DIN with a tail of `t` data bytes; t above 15 is illegal (45_padding.md R204). -/
def execPad (t : Byte) (s : State) : Result :=
  if 15 < t.toNat then fail .illegalCommand s
  else finish (putBlock (padblock s.din t.toNat) 16#5 s)

/-- UNPAD: check the padding of DIN (45_padding.md R205). -/
def execUnpad (s : State) : Result :=
  match padcheck s.din with
  | none => fail .invalidPadding s
  | some n => finish (putBlock s.din (BitVec.ofNat 5 (16 - n)) s)

end Machine

end Sys2Proof
end

