-- ==== Sys2Proof/Machine/Cbc.lean ====
section
/-! DEFINITION. The CBC chaining state machine: CBCE_INIT, CBCE, CBCD_INIT and CBCD (46_cbc.md R222 to
R229). -/

namespace Sys2Proof.Machine

/-- Opening an encryption stream: CHAIN <- IV, BLKREM <- L div 16 + 1, TAIL <- L mod 16, MODE <- ENC
(46_cbc.md R224, R226). -/
def openEncryption (s : State) : State :=
  { s with
    chain := s.iv
    blkrem := s.msglen / 16#32 + 1#32
    tail := (s.msglen % 16#32).setWidth 4
    mode := .enc }

/-- CBCE_INIT: open an encryption stream, with the IV drawn from the RNG provider when GEN = 1
(46_cbc.md R226). -/
def execCbceInit (gen : Bool) (s : State) : Result :=
  if s.mode ≠ .idle then fail .sequenceError s
  else if s.keyv = false then fail .noKey s
  else if gen then
    let (answer, s) := rngDraw s
    match answer with
    | none => fail .rngFailure s
    | some v => finish (openEncryption { s with iv := v })
  else finish (openEncryption s)

/-- CBCE: encrypt the next block of the open encryption stream, padding the final one
(46_cbc.md R227). -/
def execCbce (s : State) : Result :=
  if s.mode ≠ .enc then fail .sequenceError s
  else
    let x := if s.blkrem = 1#32 then padblock s.din s.tail.toNat else s.din
    let c := cipher s.rk (x.xor s.chain)
    let rest := s.blkrem - 1#32
    finish
      { putBlock c 16#5 s with
        chain := c
        blkrem := rest
        mode := if rest = 0#32 then .idle else s.mode
        tail := if rest = 0#32 then 0#4 else s.tail }

/-- CBCD_INIT: open a decryption stream (46_cbc.md R228). -/
def execCbcdInit (s : State) : Result :=
  if s.mode ≠ .idle then fail .sequenceError s
  else if s.keyv = false then fail .noKey s
  else if s.msglen = 0#32 ∨ s.msglen % 16#32 ≠ 0#32 then fail .invalidCiphertextLength s
  else
    finish { s with chain := s.iv, blkrem := s.msglen / 16#32, mode := .dec }

/-- CBCD: decrypt the next block of the open decryption stream, checking the padding of the final one
(46_cbc.md R229). -/
def execCbcd (s : State) : Result :=
  if s.mode ≠ .dec then fail .sequenceError s
  else
    let p := (invCipher s.rk s.din).xor s.chain
    if s.blkrem = 1#32 then
      match padcheck p with
      | none => fail .invalidPadding s
      | some n =>
        finish
          { putBlock p (BitVec.ofNat 5 (16 - n)) s with
            chain := s.din
            blkrem := 0#32
            mode := .idle }
    else
      finish { putBlock p 16#5 s with chain := s.din, blkrem := s.blkrem - 1#32 }

end Sys2Proof.Machine
end

