-- ==== Sys2Proof/Machine/Control.lean ====
section
/-! DEFINITION. The control commands NOP and ABORT (47_control.md R250, R251). -/

namespace Sys2Proof.Machine

/-- NOP: complete without effect (47_control.md R250). -/
def execNop (s : State) : Result := finish s

/-- ABORT: close any open stream without an error (47_control.md R251). -/
def execAbort (s : State) : Result :=
  finish { s with mode := .idle, blkrem := 0#32, tail := 0#4 }

end Sys2Proof.Machine
end

