-- ==== Sys2Proof/Machine/Dispatch.lean ====
section
/-! DEFINITION. One arm per command: the command's own meaning (10_state.md R49). -/

namespace Sys2Proof.Machine

/-- The rule of a decoded command on the state as it stands at completion (10_state.md R49). -/
def exec (i : Instr) (s : State) : Host.Outcome State Fault Refusal :=
  match i with
  | .nop => Sys2Proof.Machine.execNop s
  | .abort => Sys2Proof.Machine.execAbort s
  | .gmul a b => Sys2Proof.Machine.execGmul a b s
  | .ginv a => Sys2Proof.Machine.execGinv a s
  | .sbox a => Sys2Proof.Machine.execSbox a s
  | .invsbox a => Sys2Proof.Machine.execInvsbox a s
  | .keyexp len => Sys2Proof.Machine.execKeyexp len s
  | .rotword => Sys2Proof.Machine.execRotword s
  | .subword => Sys2Proof.Machine.execSubword s
  | .rcon j => Sys2Proof.Machine.execRcon j s
  | .encb len => Sys2Proof.Machine.execEncb len s
  | .decb len => Sys2Proof.Machine.execDecb len s
  | .subbytes => Sys2Proof.Machine.execSubbytes s
  | .invsubbytes => Sys2Proof.Machine.execInvsubbytes s
  | .shiftrows => Sys2Proof.Machine.execShiftrows s
  | .invshiftrows => Sys2Proof.Machine.execInvshiftrows s
  | .mixcolumns => Sys2Proof.Machine.execMixcolumns s
  | .invmixcolumns => Sys2Proof.Machine.execInvmixcolumns s
  | .addrk => Sys2Proof.Machine.execAddrk s
  | .pad t => Sys2Proof.Machine.execPad t s
  | .unpad => Sys2Proof.Machine.execUnpad s
  | .cbceInit gen => Sys2Proof.Machine.execCbceInit gen s
  | .cbce => Sys2Proof.Machine.execCbce s
  | .cbcdInit => Sys2Proof.Machine.execCbcdInit s
  | .cbcd => Sys2Proof.Machine.execCbcd s

end Sys2Proof.Machine
end

