-- ==== Sys2Proof/Machine/Cycle.lean ====
section
/-! DEFINITION. One core clock cycle: the reset input first, then the host transaction, then the sequencer
(20_memory.md R70, 60_exceptions.md R281, 70_reset_and_hazards.md R300, R320). -/

namespace Sys2Proof.Machine

/-- Completion: the rule of the command that S.pending encodes; a word that decodes to no command raises
IllegalCommand (10_state.md R49, 30_encoding.md R86). -/
def runPending (s : State) : Result :=
  match s.pending with
  | none => .fault .noPendingCommand
  | some w =>
    match decode w with
    | .ok i => exec i s
    | .error _ => fail .illegalCommand s

/-- The sequencer's part of a cycle. `wasBusy` is BUSY at the start of the cycle, so that a command
issued in this cycle starts counting in the next one: completion falls LAT(op) cycles after issue
(10_state.md R49, 70_reset_and_hazards.md R320). -/
def sequencerPhase (wasBusy : Bool) (s : State) : Result :=
  if wasBusy then
    if s.latLeft ≤ 1 then runPending s else .next { s with latLeft := s.latLeft - 1 }
  else .next s

/-- One clock cycle. Reset wins over everything else in its cycle; a transaction goes before a
completion of the same cycle. -/
def clockCycle (s : State) : Result :=
  if s.errcode = some .truncatedInput then .fault .reservedErrorCode
  else if (cycleInput s).reset then .next (resetEvent (popInput s))
  else sequencerPhase s.busy (hostPhase (cycleInput s).access (popInput s))

end Sys2Proof.Machine
end

