-- ==== Sys2Proof/Machine/Step.lean ====
section
/-! DEFINITION. The step of the machine, one core clock cycle, and the host's way to place a command word
where the next step runs it. -/

namespace Sys2Proof.Machine

/-- One step is one core clock cycle (log entry 1). -/
def step (s : State) : Host.Outcome State Fault Refusal := clockCycle s

/-- The state in which the very next step runs the command word `w` of `nbits` bits: it stands issued
and due. The core fetches nothing (10_state.md R50), so this stands for the accepted CMD write
(log entry 13). -/
def State.withFetchWord (s : State) (nbits w : Nat) : State :=
  loadPending (BitVec.ofNat 32 (w % 2 ^ nbits)) s

end Sys2Proof.Machine
end

