-- ==== Sys2Proof/Machine/HostProgram.lean ====
section
/-! DEFINITION. Host programs: the statements of the assembler syntax and the pseudo-instructions, as the
register accesses they expand to, and the WAIT loop (30_encoding.md R89, R90, 70_reset_and_hazards.md
R314). -/

namespace Sys2Proof.Machine

/-- F1 of a mnemonic written without an operand: KEYEXP is KEYEXP 32, ENCB and DECB are ENCB 16 and
DECB 16, CBCE_INIT has GEN = 0 (30_encoding.md R89). DESIGN CHOICE (log entry 17): the rule gives no
default for the operands of GMUL, GINV, SBOX, INVSBOX, RCON and PAD; the model takes 0x00, as it does for
F2 in `HostStmt.expand`. -/
def defaultF1 (op : Op) : Byte :=
  if op = .keyexp then 32#8
  else if op = .encb then 16#8
  else if op = .decb then 16#8
  else 0x00#8

/-- A statement of a host program, WAIT apart (30_encoding.md R89, R90). -/
inductive HostStmt where
  /-- `WR reg, imm32`. -/
  | wr (r : Reg) (v : Word)
  /-- `RD reg`. -/
  | rd (r : Reg)
  /-- A mnemonic with the operands that are written. -/
  | mnem (op : Op) (f1 f2 : Option Byte)
  | ldkey (k : Key)
  | ldiv (b : Block)
  | ldin (b : Block)
  | rdout
  | setlen (n : Word)
  | clrdone
  | clrerr
  | clrrej
  deriving DecidableEq, Repr

/-- A 32-bit host write of a register. -/
def writeOf (r : Reg) (v : Word) : Access := ⟨r.offset, .bits32, .write v⟩

/-- A 32-bit host read of a register. -/
def readOf (r : Reg) : Access := ⟨r.offset, .bits32, .read⟩

/-- The accesses a statement expands to, in order (30_encoding.md R89, R90). DESIGN CHOICE (log entry 17):
an omitted operand for which R89 gives no default is 0x00, and one that the mnemonic's operand form does
not name is put into its field. -/
def HostStmt.expand : HostStmt → List Access
  | .wr r v => [writeOf r v]
  | .rd r => [readOf r]
  | .mnem op f1 f2 => [writeOf .cmd (enc op.code (f1.getD (defaultF1 op)) (f2.getD 0x00#8))]
  | .ldkey k =>
    [writeOf (.key 0) k.k0, writeOf (.key 1) k.k1, writeOf (.key 2) k.k2, writeOf (.key 3) k.k3,
     writeOf (.key 4) k.k4, writeOf (.key 5) k.k5, writeOf (.key 6) k.k6, writeOf (.key 7) k.k7]
  | .ldiv b =>
    [writeOf (.iv 0) b.w0, writeOf (.iv 1) b.w1, writeOf (.iv 2) b.w2, writeOf (.iv 3) b.w3]
  | .ldin b =>
    [writeOf (.din 0) b.w0, writeOf (.din 1) b.w1, writeOf (.din 2) b.w2, writeOf (.din 3) b.w3]
  | .rdout => [readOf (.dout 0), readOf (.dout 1), readOf (.dout 2), readOf (.dout 3)]
  | .setlen n => [writeOf .msglen n]
  | .clrdone => [writeOf .status 0x2#32]
  | .clrerr => [writeOf .status 0x4#32]
  | .clrrej => [writeOf .status 0x8#32]

/-- What a list of accesses does to the core, one after the other with no completion in between
(20_memory.md R70). -/
def perform (accesses : List Access) (s : State) : State :=
  accesses.foldl (fun s a => hostPhase (some a) s) s

/-- The cycles of a list of statements, one access a cycle and no reset. -/
def cyclesOf (p : List HostStmt) : List Cycle :=
  (p.flatMap HostStmt.expand).map fun a => ⟨false, some a⟩

/-- Whether the read of STATUS in the last cycle returned BUSY = 0. -/
def sawIdle (s : State) : Bool :=
  match s.resp with
  | some (.data v) => !v.getLsbD 0
  | some .ack => false
  | some .busError => false
  | none => false

/-- WAIT: RD STATUS, one poll a cycle, until bit 0 reads 0, with at most `n` polls
(30_encoding.md R90, 70_reset_and_hazards.md R314). It answers the state after the poll that read 0, or
`none` when the polls ran out or the machine stopped. -/
def waitIdle : (n : Nat) → State → Option State
  | 0, _ => none
  | n + 1, s =>
    match step { s with inputs := [⟨false, some (readOf .status)⟩] } with
    | .next t => if sawIdle t then some t else waitIdle n t
    | .fault _ => none
    | .refused _ => none

end Sys2Proof.Machine
end

