-- ==== Sys2Proof/Machine/Message.lean ====
section
/-! DEFINITION. The message-level functions of the source, on byte sequences of any length, and the feeding
of a stream block by block that computes them (20_memory.md R64, 45_padding.md R200, R201, 46_cbc.md
R220, R221, R230, R231). -/

namespace Sys2Proof

/-! ## Messages and blocks (20_memory.md R64) -/

/-- Block i of a message, bytes past its end being 0. -/
def blockAt (m : List Byte) (i : Nat) : Block := Block.ofBytes fun j => m.getD (16 * i + j) 0x00#8

/-- The whole blocks of a message, in order. -/
def blocksOf (m : List Byte) : List Block := (List.range (m.length / 16)).map (blockAt m)

/-- The bytes of a sequence of blocks. -/
def bytesOf (bs : List Block) : List Byte := bs.flatMap Block.bytes

/-! ## Padding of a message -/

/-- pad(data): N bytes of value N, where N = 16 - (L mod 16) (45_padding.md R200). -/
def pad (data : List Byte) : List Byte :=
  let n := 16 - data.length % 16
  data ++ List.replicate n (BitVec.ofNat 8 n)

/-- unpad(p), `none` being InvalidPadding (45_padding.md R201). -/
def unpad (p : List Byte) : Option (List Byte) :=
  if p.length = 0 ∨ p.length % 16 ≠ 0 then none
  else
    let n := (p.getD (p.length - 1) 0x00#8).toNat
    if n < 1 ∨ 16 < n then none
    else if p.drop (p.length - n) ≠ List.replicate n (BitVec.ofNat 8 n) then none
    else some (p.take (p.length - n))

/-! ## CBC on a message -/

/-- The ciphertext blocks of a sequence of padded blocks, with the chain value so far
(46_cbc.md R220). -/
def encryptBlocks (rk : Vector Word 60) : (chain : Block) → List Block → List Block
  | _, [] => []
  | chain, q :: qs => cipher rk (q.xor chain) :: encryptBlocks rk (cipher rk (q.xor chain)) qs

/-- The plaintext blocks, pad included, of a sequence of ciphertext blocks (46_cbc.md R221). -/
def decryptBlocks (rk : Vector Word 60) : (chain : Block) → List Block → List Block
  | _, [] => []
  | chain, c :: cs => (invCipher rk c).xor chain :: decryptBlocks rk c cs

/-- CBC_Encrypt(key, iv, P) (46_cbc.md R220). -/
def cbcEncrypt (key : Key) (iv : Block) (p : List Byte) : List Byte :=
  bytesOf (encryptBlocks (keyExpansion key) iv (blocksOf (pad p)))

/-- CBC_Decrypt(key, iv, C), the length test first (46_cbc.md R221). -/
def cbcDecrypt (key : Key) (iv : Block) (c : List Byte) : Except Machine.ErrorCode (List Byte) :=
  if c.length = 0 ∨ c.length % 16 ≠ 0 then .error .invalidCiphertextLength
  else
    match unpad (bytesOf (decryptBlocks (keyExpansion key) iv (blocksOf c))) with
    | none => .error .invalidPadding
    | some p => .ok p

namespace Machine

/-! ## One stream command per block (46_cbc.md R230, R231) -/

/-- For each block in turn: DIN takes the block, the command runs, and the host reads DOUT and OUTLEN
after it (log entry 16). The result is what the host read and the state at the end; `none` when a command
stops. -/
def feed (i : Instr) : List Block → State → Option (List (Block × BitVec 5) × State)
  | [], s => some ([], s)
  | b :: bs, s =>
    match exec i { s with din := b } with
    | .next t =>
      match feed i bs t with
      | some (outs, u) => some ((t.dout, t.outlen) :: outs, u)
      | none => none
    | .fault _ => none
    | .refused _ => none

/-- The first OUTLEN bytes of each DOUT, concatenated in order (46_cbc.md R231). -/
def readOut (outs : List (Block × BitVec 5)) : List Byte :=
  outs.flatMap fun o => o.1.bytes.take o.2.toNat

end Machine

end Sys2Proof
end

