-- ==== Sys2Proof/Safety.lean ====
section
/-! DEFINITION. The terms claims are stated in: the invariant of every reachable state (10_state.md R47),
what a completed command leaves, the frames of the commands, and the polynomial product behind GF(2^8). -/

namespace Sys2Proof.Machine

/-! ## The invariant -/

/-- The invariants of 10_state.md R47 (item 1, MODE in 0 to 2, is the type of `mode`), the bounds of
46_cbc.md R222 on BLKREM, the reserved error code of 60_exceptions.md R262, and the model's own count of
cycles. -/
structure Inv (s : State) : Prop where
  /-- R47 item 2. -/
  idleIsClosed : s.mode = .idle → s.blkrem = 0#32 ∧ s.tail = 0#4
  /-- R47 item 3. -/
  streamIsOpen : s.mode ≠ .idle → 1 ≤ s.blkrem.toNat ∧ s.keyv = true
  /-- R47 item 4. -/
  decHasNoTail : s.mode = .dec → s.tail = 0#4
  /-- R47 item 5. -/
  busyIsClean : s.busy = true → s.err = false ∧ s.done = false ∧ s.pending.isSome = true
  /-- R47 item 6. -/
  restIsEmpty : s.busy = false → s.pending = none
  /-- R47 item 7. -/
  errHasCode : s.err = false ↔ s.errcode = none
  /-- R47 item 8. -/
  noKeyNoWords : s.keyv = false → s.rk = Vector.replicate 60 0#32
  /-- R47 item 9. -/
  outlenBound : s.outlen.toNat ≤ 16
  /-- 46_cbc.md R222: BLKREM is at most 0x10000000 in ENC. -/
  encBound : s.mode = .enc → s.blkrem.toNat ≤ 0x10000000
  /-- 46_cbc.md R222: BLKREM is at most 0x0FFFFFFF in DEC. -/
  decBound : s.mode = .dec → s.blkrem.toNat ≤ 0x0FFFFFFF
  /-- 60_exceptions.md R262. -/
  neverTruncated : s.errcode ≠ some .truncatedInput
  /-- The running command has a cycle left, and no cycle is counted while none runs. -/
  countIsLive : if s.busy then 1 ≤ s.latLeft else s.latLeft = 0

/-- The states a run from reset can reach, whatever the host, the platform and the RNG provider do. -/
inductive Reachable : State → Prop where
  /-- The state after reset, before any outside activity that `inputs` and `rngPort` list. -/
  | reset (inputs : List Cycle) (port : List (Option Block)) :
      Reachable { State.reset with inputs := inputs, rngPort := port }
  | step {s t : State} : Reachable s → step s = .next t → Reachable t

/-- A safe state: the next clock cycle answers a next state. -/
def Safe (s : State) : Prop := ∃ t, step s = .next t

/-! ## What a completed command leaves -/

/-- Completion's bookkeeping is done (10_state.md R49). -/
def Completed (t : State) : Prop :=
  t.busy = false ∧ t.done = true ∧ t.pending = none ∧ t.latLeft = 0

/-- The registers that only the host writes, and REJECT, are unchanged: CTRL, REJECT, MSGLEN, KEY, DIN. -/
def SameHostRegs (s t : State) : Prop :=
  t.ctrl = s.ctrl ∧ t.reject = s.reject ∧ t.msglen = s.msglen ∧ t.key = s.key ∧ t.din = s.din

/-- IV is unchanged. -/
def SameIv (s t : State) : Prop := t.iv = s.iv

/-- The round-key file and KEYV are unchanged. -/
def SameRoundKeys (s t : State) : Prop := t.rk = s.rk ∧ t.keyv = s.keyv

/-- MODE, BLKREM and TAIL are unchanged. -/
def SameStream (s t : State) : Prop := t.mode = s.mode ∧ t.blkrem = s.blkrem ∧ t.tail = s.tail

/-- CHAIN is unchanged. -/
def SameChain (s t : State) : Prop := t.chain = s.chain

/-- DOUT and OUTLEN are unchanged. -/
def SameOutput (s t : State) : Prop := t.dout = s.dout ∧ t.outlen = s.outlen

/-- ERR and ERRCODE are unchanged. -/
def SameError (s t : State) : Prop := t.err = s.err ∧ t.errcode = s.errcode

/-- What stands around the core is unchanged: the coming cycles, the last response, the RNG port. -/
def SameOutside (s t : State) : Prop :=
  t.inputs = s.inputs ∧ t.resp = s.resp ∧ t.rngPort = s.rngPort ∧ t.rngDraws = s.rngDraws

/-- The frame of a command that writes DOUT and OUTLEN alone: everything else in the state but
completion's bookkeeping is unchanged. -/
def OutputFrame (s t : State) : Prop :=
  SameHostRegs s t ∧ SameIv s t ∧ SameRoundKeys s t ∧ SameStream s t ∧ SameChain s t ∧ SameError s t
    ∧ SameOutside s t

/-- The whole effect of a command that writes DOUT and OUTLEN alone: it completes with this output and
changes nothing else. -/
def GivesOutput (r : Result) (s : State) (b : Block) (n : Nat) : Prop :=
  ∃ t, r = .next t ∧ t.dout = b ∧ t.outlen.toNat = n ∧ Completed t ∧ OutputFrame s t

/-- The whole effect of an error (60_exceptions.md R270): the code is latched, the stream is closed, DOUT
and OUTLEN are cleared by InvalidPadding and by nothing else, the command is completed, and the rest is
kept. -/
def TakesError (r : Result) (s : State) (e : ErrorCode) : Prop :=
  ∃ t, r = .next t ∧ t.err = true ∧ t.errcode = some e ∧ t.mode = .idle ∧ t.blkrem = 0#32
    ∧ t.tail = 0#4
    ∧ (if e = .invalidPadding then t.dout = Block.zero ∧ t.outlen = 0#5 else SameOutput s t)
    ∧ Completed t ∧ SameHostRegs s t ∧ SameIv s t ∧ SameRoundKeys s t ∧ SameChain s t
    ∧ SameOutside s t

/-- The answer the RNG provider gives to the next request: the one that stands at the port, or the free
value of that request (60_exceptions.md R285). -/
def nextAnswer (s : State) : Option Block :=
  match s.rngPort with
  | [] => Config.rngAnswer s.rngDraws
  | answer :: _ => answer

/-- The state after the RNG provider has answered one request: nothing in the core has changed. -/
def afterDraw (s : State) : State := { s with rngPort := s.rngPort.tail, rngDraws := s.rngDraws + 1 }

/-- The errors a command may raise, by the column "Raised by" of 60_exceptions.md R260; IllegalCommand is
raised by a word that decodes to no command. -/
def mayRaise (i : Instr) (e : ErrorCode) : Prop :=
  match e with
  | .invalidKeyLength => i.op = .keyexp
  | .invalidBlockSize => i.op = .encb ∨ i.op = .decb
  | .invalidPadding => i.op = .unpad ∨ i.op = .cbcd
  | .invalidCiphertextLength => i.op = .cbcdInit
  | .truncatedInput => False
  | .rngFailure => i = .cbceInit true
  | .illegalCommand => i.wellFormed = false
  | .noKey => i.op = .encb ∨ i.op = .decb ∨ i.op = .cbceInit ∨ i.op = .cbcdInit
  | .sequenceError =>
    i.op = .keyexp ∨ i.op = .cbceInit ∨ i.op = .cbcdInit ∨ i.op = .cbce ∨ i.op = .cbcd

/-- Everything in the core but the named registers of the CBC state machine and its outputs is as before:
the frame of the stream commands that succeed. -/
def StreamFrame (s t : State) : Prop := SameHostRegs s t ∧ SameRoundKeys s t ∧ SameError s t

end Sys2Proof.Machine

namespace Sys2Proof

/-! ## Polynomials over GF(2) -/

/-- The product of two polynomials over GF(2) whose degrees add up to at most 15, bit k being the
coefficient of x^k (41_galois_field.md R100). -/
def polyProduct (a b : BitVec 16) : BitVec 16 :=
  (List.range 16).foldl (fun r k => if b.getLsbD k then r ^^^ (a <<< k) else r) 0#16

/-- The product of `n` copies of a byte in GF(2^8) (41_galois_field.md R103). -/
def gpow (a : Byte) : Nat → Byte
  | 0 => 0x01#8
  | n + 1 => gmul a (gpow a n)

end Sys2Proof
end

