-- ==== Sys2Proof/Certificates/Slice0/Obligations.lean ====
section
/-! DEFINITION. The statements for the provers, from the numbered rules of spec/. -/

open Sys2Proof Sys2Proof.Machine

/-! ## Encoding -/

/-- Words written from the spec's encodings decode to their commands, one at least for every family, and
illegal words are refused for the reason the spec gives (30_encoding.md R85, R86). -/
def Obligations.SpecWordsDecode : Prop :=
  decode 0x00000000#32 = .ok .nop
    ∧ decode 0x00000001#32 = .ok .abort
    ∧ decode 0x00835708#32 = .ok (.gmul 0x57#8 0x83#8)
    ∧ decode 0x00005309#32 = .ok (.ginv 0x53#8)
    ∧ decode 0x0000530A#32 = .ok (.sbox 0x53#8)
    ∧ decode 0x0000ED0B#32 = .ok (.invsbox 0xED#8)
    ∧ decode 0x00002010#32 = .ok (.keyexp 32#8)
    ∧ decode 0x00000713#32 = .ok (.rcon 7#8)
    ∧ decode 0x00001020#32 = .ok (.encb 16#8)
    ∧ decode 0x00001021#32 = .ok (.decb 16#8)
    ∧ decode 0x00000025#32 = .ok .invshiftrows
    ∧ decode 0x00000530#32 = .ok (.pad 5#8)
    ∧ decode 0x00000031#32 = .ok .unpad
    ∧ decode 0x00000140#32 = .ok (.cbceInit true)
    ∧ decode 0x00000043#32 = .ok .cbcd
    ∧ decode 0x01000009#32 = .error .reservedByte
    ∧ decode 0x00010009#32 = .error .noRow
    ∧ decode 0x00000240#32 = .error .noRow
    ∧ decode 0x00000813#32 = .error .rconIndex
    ∧ decode 0x00001030#32 = .error .padCount

/-- Decoding the word of a well-formed command gives the command back, every operand at every value the
encoding admits (30_encoding.md R80, R81, R85, R86). -/
def Obligations.EncodedCommandDecodesToItself : Prop :=
  ∀ i : Instr, i.wellFormed = true → decode (encode i) = .ok i

/-- A word that decodes to a command is that command's word, and the command is well formed: every word
has at most one meaning and no bit of it is dropped (30_encoding.md R85 to R88). -/
def Obligations.DecodedWordIsTheEncodedCommand : Prop :=
  ∀ (w : Word) (i : Instr), decode w = .ok i → i.wellFormed = true ∧ encode i = w

/-- No word belongs to two rows of the opcode map (30_encoding.md R85). -/
def Obligations.OpcodeRowsAreDisjoint : Prop :=
  ∀ (w : Word) (r q : Row), r ∈ opcodeTable → q ∈ opcodeTable → r.holds w = true → q.holds w = true →
    r = q

/-- A word with a reserved OP, with RSV other than 0, or with a nonzero field that must be 0 decodes to no
command, and its completion raises IllegalCommand and changes nothing but the error bookkeeping; NOP's
word is the only one that decodes to NOP (30_encoding.md R87). -/
def Obligations.ReservedWordsRaiseIllegalCommand : Prop :=
  (∀ w : Word,
    ((0x02 ≤ (opField w).toNat ∧ (opField w).toNat ≤ 0x07)
      ∨ (0x0C ≤ (opField w).toNat ∧ (opField w).toNat ≤ 0x0F)
      ∨ (0x14 ≤ (opField w).toNat ∧ (opField w).toNat ≤ 0x1F)
      ∨ (0x29 ≤ (opField w).toNat ∧ (opField w).toNat ≤ 0x2F)
      ∨ (0x32 ≤ (opField w).toNat ∧ (opField w).toNat ≤ 0x3F)
      ∨ 0x44 ≤ (opField w).toNat
      ∨ rsvField w ≠ 0#8
      ∨ (f2Field w ≠ 0#8 ∧ opField w ≠ 0x08#8)
      ∨ (f1Field w ≠ 0#8
          ∧ opField w ∈ [0x00#8, 0x01#8, 0x11#8, 0x12#8, 0x22#8, 0x23#8, 0x24#8, 0x25#8, 0x26#8, 0x27#8,
              0x28#8, 0x31#8, 0x41#8, 0x42#8, 0x43#8])
      ∨ (f1Field w ≠ 0#8 ∧ f1Field w ≠ 1#8 ∧ opField w = 0x40#8)) →
    (∃ why, decode w = .error why)
      ∧ ∀ s : State, s.pending = some w → TakesError (runPending s) s .illegalCommand)
  ∧ ∀ w : Word, decode w = .ok .nop → w = 0#32

/-! ## The step -/

/-- The cycle in which a running command is due runs it: the command of the pending word, on the state as
it stands after this cycle's host transaction; a pending word that is no command raises IllegalCommand
there (10_state.md R49, 30_encoding.md R86, 20_memory.md R70). The cycle and the count `latLeft` are the
model's form (log entries 1 and 2). -/
def Obligations.StepRunsThePendingCommand : Prop :=
  ∀ (s : State) (w : Word),
    s.errcode ≠ some .truncatedInput → (cycleInput s).reset = false → s.busy = true → s.latLeft ≤ 1 →
    s.pending = some w →
    (∀ i, decode w = .ok i → step s = exec i (hostPhase (cycleInput s).access (popInput s)))
      ∧ ∀ why, decode w = .error why →
        TakesError (step s) (hostPhase (cycleInput s).access (popInput s)) .illegalCommand

/-- From any state, the word placed by `withFetchWord` is what the very next step runs (the model's own
convention, log entry 13). -/
def Obligations.PlacedWordRunsAtTheNextStep : Prop :=
  ∀ (s : State) (w : Nat) (i : Instr), w < 2 ^ 32 → decode (BitVec.ofNat 32 w) = .ok i →
    step (s.withFetchWord 32 w) = exec i (hostPhase none (popInput (s.withFetchWord 32 w)))

/-- Whatever the host does, every register a command reads or writes keeps its value from issue until the
cycle in which the command completes (70_reset_and_hazards.md R311). The count `latLeft` and the list of
coming cycles are the model's own (log entries 1 and 2). -/
def Obligations.OperandsAreFrozenWhileBusy : Prop :=
  ∀ (s t : State) (k : Nat),
    s.busy = true → k < s.latLeft → (∀ c ∈ s.inputs.take k, c.reset = false) →
    core.run k s = .next t →
    t.busy = true ∧ t.pending = s.pending ∧ t.latLeft = s.latLeft - k
      ∧ t.din = s.din ∧ t.iv = s.iv ∧ t.msglen = s.msglen ∧ t.key = s.key ∧ SameChain s t
      ∧ SameStream s t ∧ SameRoundKeys s t ∧ SameOutput s t

/-- A command the host issues runs for exactly LAT cycles, whatever else the host does short of reset, and
then has completed: BUSY is 1 after the issuing cycle and after each of the LAT - 1 cycles that follow,
and in the cycle after those BUSY becomes 0 and DONE 1 (10_state.md R49, 70_reset_and_hazards.md R320).
That time is counted at all is the model's choice (log entries 1 and 2), and so is the form of the provider's
wait that LAT of CBCE_INIT with GEN = 1 adds (log entry 3). -/
def Obligations.CommandCompletesLatencyCyclesAfterIssue : Prop :=
  ∀ (s : State) (w : Word) (rest : List Cycle),
    Inv s → s.busy = false → s.err = false →
    s.inputs = ⟨false, some ⟨0x14#8, .bits32, .write w⟩⟩ :: rest →
    (∀ c ∈ rest.take (commandLatency w s.rngDraws), c.reset = false) →
    (∀ k, 1 ≤ k → k ≤ commandLatency w s.rngDraws →
      ∃ u, core.run k s = .next u ∧ u.busy = true ∧ u.pending = some w)
    ∧ ∃ t, core.run (commandLatency w s.rngDraws + 1) s = .next t ∧ t.busy = false ∧ t.done = true
        ∧ t.pending = none

/-- In the cycle in which a command completes, the host's transaction comes first: a write that clears DONE
is followed by the completion that sets it, a CMD write is rejected, and a reset wins over both
(60_exceptions.md R281). The cycle is the model's form (log entries 1 and 2). -/
def Obligations.SameCycleTransactionComesFirst : Prop :=
  ∀ (s : State) (rest : List Cycle) (v : Word), Inv s → s.busy = true → s.latLeft = 1 →
    (s.inputs = ⟨false, some ⟨0x0C#8, .bits32, .write v⟩⟩ :: rest →
      ∃ t, step s = .next t ∧ t.done = true ∧ t.busy = false)
    ∧ (s.inputs = ⟨false, some ⟨0x14#8, .bits32, .write v⟩⟩ :: rest →
      ∃ t, step s = .next t ∧ t.done = true ∧ t.busy = false ∧ t.pending = none ∧ t.reject = true)
    ∧ (∀ a, s.inputs = ⟨true, a⟩ :: rest →
      ∃ t, step s = .next t ∧ t.done = false ∧ t.busy = false ∧ t.pending = none ∧ t.reject = false)

/-- The reset input gives every piece of state its reset value, whatever runs and whatever the host does in
that cycle, and reaches neither the coming cycles nor the RNG provider (70_reset_and_hazards.md R300,
R302; the fields around the core are the model's own, log entries 1, 4 and 5). -/
def Obligations.ResetClearsEverything : Prop :=
  ∀ (s : State) (a : Option Access) (rest : List Cycle),
    s.errcode ≠ some .truncatedInput → s.inputs = ⟨true, a⟩ :: rest →
    ∃ t, step s = .next t
      ∧ t.ctrl = ⟨false, false⟩ ∧ t.busy = false ∧ t.done = false ∧ t.err = false ∧ t.reject = false
      ∧ t.keyv = false ∧ t.mode = .idle ∧ t.tail = 0#4 ∧ statusWord t = 0#32
      ∧ errcodeWord t.errcode = 0#32 ∧ t.msglen = 0#32 ∧ t.blkrem = 0#32 ∧ t.outlen = 0#5
      ∧ (∀ n, t.key.words.getD n 0#32 = 0#32)
      ∧ (∀ k, t.iv.word k = 0#32 ∧ t.chain.word k = 0#32 ∧ t.din.word k = 0#32 ∧ t.dout.word k = 0#32)
      ∧ (∀ n, t.rk.toList.getD n 0#32 = 0#32)
      ∧ t.pending = none ∧ irq t = false
      ∧ hostRead t 0x00#8 = 0x41323536#32 ∧ hostRead t 0x04#8 = 0x00010000#32
      ∧ t.inputs = rest ∧ t.rngPort = s.rngPort ∧ t.rngDraws = s.rngDraws

/-- The state after reset satisfies the invariant; the core is IDLE, not busy, both interrupt sources are
masked, and the first CMD write is accepted (70_reset_and_hazards.md R301). -/
def Obligations.StateAfterResetIsReady : Prop :=
  Inv State.reset ∧ State.reset.mode = .idle ∧ State.reset.busy = false
    ∧ State.reset.ctrl.doneie = false ∧ State.reset.ctrl.errie = false
    ∧ ∀ w : Word, (writeReg .cmd w State.reset).pending = some w
        ∧ (writeReg .cmd w State.reset).busy = true ∧ (writeReg .cmd w State.reset).reject = false

/-- Every step keeps the invariant (10_state.md R47): whatever the host, the platform and the RNG provider
do, from every state that meets it and not only from those a run reaches. -/
def Obligations.EveryStepKeepsTheInvariant : Prop :=
  ∀ s t : State, Inv s → step s = .next t → Inv t

/-- The invariants hold in every reachable state (10_state.md R47). Item 1 holds by the type of `mode` (log
entry 8). -/
def Obligations.InvariantsHoldInEveryReachableState : Prop :=
  ∀ s : State, Reachable s →
    (s.mode = .idle ∨ s.mode = .enc ∨ s.mode = .dec)
    ∧ (s.mode = .idle → s.blkrem = 0#32 ∧ s.tail = 0#4)
    ∧ (s.mode ≠ .idle → 1 ≤ s.blkrem.toNat ∧ s.keyv = true)
    ∧ (s.mode = .dec → s.tail = 0#4)
    ∧ (s.busy = true → s.err = false ∧ s.done = false ∧ s.pending ≠ none)
    ∧ (s.busy = false → s.pending = none)
    ∧ (s.err = false ↔ errcodeWord s.errcode = 0#32)
    ∧ (s.keyv = false → ∀ n, s.rk.toList.getD n 0#32 = 0#32)
    ∧ (outlenWord s.outlen).toNat ≤ 16

/-- No state that meets the invariant stops: every clock cycle answers a next state
(93_implementation_defined.md, the end of part 1: no behaviour of the core is stuck). -/
def Obligations.InvariantStatesNeverStop : Prop := ∀ s : State, Inv s → Safe s

/-! ## Host registers -/

/-- A host read returns the register as its access type gives it, 0 for the write-only registers and for
the reserved bits; and a read at any offset that is a multiple of 4 changes nothing in the core
(20_memory.md R65). The response `resp` is the model's own (log entry 10). -/
def Obligations.ReadsReturnTheRegisterAndChangeNothing : Prop :=
  (∀ (s : State) (off : BitVec 8), off.toNat % 4 = 0 →
    hostPhase (some ⟨off, .bits32, .read⟩) s = { s with resp := some (.data (hostRead s off)) })
  ∧ ∀ s : State,
    hostRead s 0x00#8 = 0x41323536#32
    ∧ hostRead s 0x04#8 = 0x00010000#32
    ∧ (hostRead s 0x08#8).toNat = s.ctrl.doneie.toNat + 2 * s.ctrl.errie.toNat
    ∧ (hostRead s 0x0C#8).toNat
        = s.busy.toNat + 2 * s.done.toNat + 4 * s.err.toNat + 8 * s.reject.toNat + 16 * s.keyv.toNat
          + 32 * s.mode.code.toNat + 256 * s.tail.toNat
    ∧ (∀ e, s.errcode = some e → (hostRead s 0x10#8).toNat = e.code.toNat)
    ∧ (s.errcode = none → hostRead s 0x10#8 = 0#32)
    ∧ hostRead s 0x14#8 = 0#32
    ∧ hostRead s 0x18#8 = s.msglen
    ∧ hostRead s 0x1C#8 = s.blkrem
    ∧ (hostRead s 0x20#8).toNat = s.outlen.toNat
    ∧ (∀ k : Nat, k < 8 → hostRead s (BitVec.ofNat 8 (0x40 + 4 * k)) = 0#32)
    ∧ (∀ k : Nat, k < 4 → hostRead s (BitVec.ofNat 8 (0x60 + 4 * k)) = s.iv.word k)
    ∧ (∀ k : Nat, k < 4 → hostRead s (BitVec.ofNat 8 (0x70 + 4 * k)) = s.chain.word k)
    ∧ (∀ k : Nat, k < 4 → hostRead s (BitVec.ofNat 8 (0x80 + 4 * k)) = s.din.word k)
    ∧ (∀ k : Nat, k < 4 → hostRead s (BitVec.ofNat 8 (0x90 + 4 * k)) = s.dout.word k)

/-- An access of another width than 32 bits, or at an offset that is no multiple of 4, gets a bus error and
changes no state of the core: the response on the bus is all (20_memory.md R67). -/
def Obligations.RefusedAccessesGetABusError : Prop :=
  ∀ (s : State) (a : Access), (a.width ≠ .bits32 ∨ a.off.toNat % 4 ≠ 0) →
    hostPhase (some a) s = { s with resp := some .busError }

/-- A host write to a mapped register, in the order of precedence of the spec: STATUS clears the flags
written with 1 (clearing ERR clears ERRCODE too), CTRL takes its two bits, a read-only register is
untouched, a write while BUSY is rejected, CMD issues or is rejected, and the rest are replaced
(20_memory.md R66). The count `latLeft` is the model's own (log entry 2). -/
def Obligations.HostWritesFollowThePrecedence : Prop :=
  ∀ (s : State) (v : Word),
    hostWrite 0x0C#8 v s
        = { s with
            done := s.done && !v.getLsbD 1
            err := s.err && !v.getLsbD 2
            errcode := if v.getLsbD 2 then none else s.errcode
            reject := s.reject && !v.getLsbD 3 }
    ∧ hostWrite 0x08#8 v s = { s with ctrl := ⟨v.getLsbD 0, v.getLsbD 1⟩ }
    ∧ (∀ off ∈ [0x00#8, 0x04#8, 0x10#8, 0x1C#8, 0x20#8, 0x70#8, 0x74#8, 0x78#8, 0x7C#8, 0x90#8, 0x94#8,
        0x98#8, 0x9C#8], hostWrite off v s = s)
    ∧ (s.busy = true → ∀ r : Reg, r = .cmd ∨ r = .msglen ∨ (∃ k, r = .key k) ∨ (∃ k, r = .iv k)
        ∨ (∃ k, r = .din k) → hostWrite r.offset v s = { s with reject := true })
    ∧ (s.busy = false → s.err = true → hostWrite 0x14#8 v s = { s with reject := true })
    ∧ (s.busy = false → s.err = false →
        ∃ n, hostWrite 0x14#8 v s
          = { s with pending := some v, busy := true, done := false, latLeft := n })
    ∧ (s.busy = false → hostWrite 0x18#8 v s = { s with msglen := v })
    ∧ (s.busy = false → ∀ k : Nat, k < 8 →
        ∃ t, hostWrite (BitVec.ofNat 8 (0x40 + 4 * k)) v s = t ∧ t = { s with key := t.key }
          ∧ ∀ n, n < 8 → t.key.words.getD n 0#32 = if n = k then v else s.key.words.getD n 0#32)
    ∧ (s.busy = false → ∀ k : Nat, k < 4 →
        ∃ t, hostWrite (BitVec.ofNat 8 (0x60 + 4 * k)) v s = t ∧ t = { s with iv := t.iv }
          ∧ ∀ n, n < 4 → t.iv.word n = if n = k then v else s.iv.word n)
    ∧ (s.busy = false → ∀ k : Nat, k < 4 →
        ∃ t, hostWrite (BitVec.ofNat 8 (0x80 + 4 * k)) v s = t ∧ t = { s with din := t.din }
          ∧ ∀ n, n < 4 → t.din.word n = if n = k then v else s.din.word n)

/-- The rejected writes are exactly those of the spec, and a rejected write changes nothing but
STATUS.REJECT <- 1 and gets no bus error; no other write sets REJECT; and a write to a read-only register
or an unmapped offset has no effect and is not rejected (60_exceptions.md R276). The response `ack` is the
model's form of "no bus error" (log entry 10). -/
def Obligations.RejectedWritesSetOnlyReject : Prop :=
  ∀ (s : State) (off : BitVec 8) (v : Word),
    let operand := off = 0x18#8 ∨ (0x40 ≤ off.toNat ∧ off.toNat < 0x70 ∧ off.toNat % 4 = 0)
      ∨ (0x80 ≤ off.toNat ∧ off.toNat < 0x90 ∧ off.toNat % 4 = 0)
    let rejected := (off = 0x14#8 ∧ (s.busy = true ∨ s.err = true)) ∨ (operand ∧ s.busy = true)
    (rejected → hostWrite off v s = { s with reject := true }
      ∧ hostPhase (some ⟨off, .bits32, .write v⟩) s = { s with reject := true, resp := some .ack })
      ∧ (¬ rejected → (hostWrite off v s).reject = true → s.reject = true)
      ∧ (off ∈ [0x00#8, 0x04#8, 0x10#8, 0x1C#8, 0x20#8, 0x70#8, 0x74#8, 0x78#8, 0x7C#8, 0x90#8, 0x94#8,
          0x98#8, 0x9C#8] ∨ (0x24 ≤ off.toNat ∧ off.toNat < 0x40) ∨ 0xA0 ≤ off.toNat →
        ¬ rejected ∧ hostWrite off v s = s)

/-- A CMD write is accepted while BUSY = 0 and ERR = 0; acceptance sets S.pending, BUSY and DONE, and
nothing else in the core changes (10_state.md R48). The count `latLeft` is the model's own (log entry 2). -/
def Obligations.AcceptedCommandIsIssued : Prop :=
  ∀ (s : State) (v : Word),
    (s.busy = false → s.err = false →
      ∃ n, hostWrite 0x14#8 v s = { s with pending := some v, busy := true, done := false, latLeft := n })
    ∧ (s.busy = true ∨ s.err = true → hostWrite 0x14#8 v s = { s with reject := true })

/-- STATUS shows its flags at their bits and 0 in the reserved bits, and a write applies the
write-one-to-clear rule to bits 1, 2 and 3 and to nothing else, BUSY or not; every field is 0 after reset
(10_state.md R25). -/
def Obligations.StatusWordShowsTheFlags : Prop :=
  statusWord State.reset = 0#32
  ∧ ∀ (s : State) (v : Word),
    (statusWord s).getLsbD 0 = s.busy ∧ (statusWord s).getLsbD 1 = s.done
    ∧ (statusWord s).getLsbD 2 = s.err ∧ (statusWord s).getLsbD 3 = s.reject
    ∧ (statusWord s).getLsbD 4 = s.keyv
    ∧ (statusWord s).extractLsb' 5 2
        = (match s.mode with
          | .idle => 0#2
          | .enc => 1#2
          | .dec => 2#2)
    ∧ (statusWord s).getLsbD 7 = false ∧ (statusWord s).extractLsb' 8 4 = s.tail
    ∧ (statusWord s).extractLsb' 12 20 = 0#20
    ∧ (∀ k, k < 32 →
        (statusWord (hostWrite 0x0C#8 v s)).getLsbD k
          = ((statusWord s).getLsbD k && !((k == 1 || k == 2 || k == 3) && v.getLsbD k)))
    ∧ (hostWrite 0x0C#8 v s).pending = s.pending

/-- irq is the level (DONE and DONEIE) or (ERR and ERRIE); it is low after reset; clearing DONE and ERR
lowers it; a new issue clears DONE; and a command that ends with an error raises it when either source is
enabled (60_exceptions.md R280). -/
def Obligations.IrqFollowsDoneAndErr : Prop :=
  irq State.reset = false
  ∧ ∀ s : State,
    (irq s = true ↔ (s.done = true ∧ s.ctrl.doneie = true) ∨ (s.err = true ∧ s.ctrl.errie = true))
    ∧ irq (hostWrite 0x0C#8 0x6#32 s) = false
    ∧ (∀ v, s.busy = false → s.err = false → irq (hostWrite 0x14#8 v s) = false)
    ∧ (∀ i t, exec i s = .next t → t.err = true → irq t = (s.ctrl.doneie || s.ctrl.errie))

/-- The key and the round keys cannot be read: states that differ only in KEY and RK give the same value at
every offset and the same irq (10_state.md R38, R43, 20_memory.md R74). -/
def Obligations.KeyMaterialIsUnreadable : Prop :=
  ∀ (s : State) (k : Key) (rk : Vector Word 60) (off : BitVec 8),
    hostRead { s with key := k, rk := rk } off = hostRead s off
      ∧ irq { s with key := k, rk := rk } = irq s

/-- An access reaches the core exactly when its address is in the 256 bytes from BASE, with the offset from
BASE; a slot that holds no register reads 0, and a write to it has no effect and sets no flag
(20_memory.md R61). That an address outside the window presents nothing is the model's choice (log entry
9). -/
def Obligations.WindowAddressingAndUnmappedSlots : Prop :=
  (∀ (addr : Nat) (width : Width) (kind : AccessKind),
    (Config.base ≤ addr ∧ addr < Config.base + 256 →
      ∃ a, presented addr width kind = some a ∧ a.off.toNat = addr - Config.base ∧ a.width = width
        ∧ a.kind = kind)
    ∧ (addr < Config.base ∨ Config.base + 256 ≤ addr → presented addr width kind = none))
  ∧ ∀ (s : State) (off : BitVec 8) (v : Word),
    (0x24 ≤ off.toNat ∧ off.toNat < 0x40) ∨ 0xA0 ≤ off.toNat →
    hostRead s off = 0#32 ∧ hostWrite off v s = s

/-- Writing the same value twice to any register but CMD leaves the same state as writing it once, and so
does a rejected CMD write; two CMD writes can differ from one (20_memory.md R69). -/
def Obligations.RepeatedWritesAreIdempotent : Prop :=
  (∀ (s : State) (off : BitVec 8) (v : Word), off ≠ 0x14#8 →
    hostWrite off v (hostWrite off v s) = hostWrite off v s)
  ∧ (∀ (s : State) (v : Word), s.busy = true ∨ s.err = true →
    hostWrite 0x14#8 v (hostWrite 0x14#8 v s) = hostWrite 0x14#8 v s)
  ∧ ∃ (s : State) (v : Word), hostWrite 0x14#8 v (hostWrite 0x14#8 v s) ≠ hostWrite 0x14#8 v s

/-- While an error is latched every CMD write is rejected; the host's write of 1 to STATUS bit 2 clears ERR
and ERRCODE and nothing else, and then a CMD write is accepted (60_exceptions.md R271). -/
def Obligations.ClearingTheErrorReadmitsCommands : Prop :=
  ∀ (s : State) (v : Word), s.busy = false → s.err = true →
    hostWrite 0x14#8 v s = { s with reject := true }
    ∧ hostWrite 0x0C#8 0x4#32 s = { s with err := false, errcode := none }
    ∧ (hostWrite 0x14#8 v (hostWrite 0x0C#8 0x4#32 s)).pending = some v
    ∧ (hostWrite 0x14#8 v (hostWrite 0x0C#8 0x4#32 s)).busy = true
    ∧ (hostWrite 0x14#8 v (hostWrite 0x0C#8 0x4#32 s)).reject = s.reject

/-! ## Control commands -/

/-- NOP completes in every state and changes nothing but completion's bookkeeping (47_control.md R250). -/
def Obligations.NopChangesNothing : Prop :=
  decode 0x00000000#32 = .ok .nop
  ∧ (∀ w : Word, w.extractLsb' 8 24 ≠ 0#24 → opField w = 0x00#8 → ∃ why, decode w = .error why)
  ∧ ∀ s : State, ∃ t, exec .nop s = .next t ∧ Completed t ∧ SameOutput s t ∧ OutputFrame s t

/-- ABORT closes any stream in every state: MODE, BLKREM and TAIL become 0, and nothing else but
completion's bookkeeping changes (47_control.md R251). -/
def Obligations.AbortClosesTheStream : Prop :=
  decode 0x00000001#32 = .ok .abort
  ∧ (∀ w : Word, w.extractLsb' 8 24 ≠ 0#24 → opField w = 0x01#8 → ∃ why, decode w = .error why)
  ∧ ∀ s : State, ∃ t, exec .abort s = .next t ∧ t.mode = .idle ∧ t.blkrem = 0#32 ∧ t.tail = 0#4
      ∧ Completed t ∧ SameOutput s t ∧ SameHostRegs s t ∧ SameIv s t ∧ SameRoundKeys s t
      ∧ SameChain s t ∧ SameError s t ∧ SameOutside s t

/-! ## Galois field -/

/-- GMUL completes in every state with gmul of its operands in byte 0 of DOUT, which is the remainder of the
polynomial product modulo x^8 + x^4 + x^3 + x + 1: the two differ by a multiple of 0x11B whose quotient has
degree at most 7, so that no product here is cut off and the remainder is unique. GINV completes with the inverse of its operand there, 0
at 0. Both write OUTLEN = 1 and change nothing else (41_galois_field.md R100, R103, R104, R105). -/
def Obligations.GmulAndGinvGiveTheByte : Prop :=
  (∀ (a b : Byte) (s : State),
    GivesOutput (exec (.gmul a b) s) s ⟨gmul a b ++ 0#24, 0#32, 0#32, 0#32⟩ 1
    ∧ ∃ q : BitVec 16, q.toNat < 256
      ∧ polyProduct (a.setWidth 16) (b.setWidth 16)
        = polyProduct q 0x11B#16 ^^^ (gmul a b).setWidth 16)
  ∧ ∀ (a : Byte) (s : State), ∃ y : Byte, (a = 0x00#8 → y = 0x00#8) ∧ (a ≠ 0x00#8 → gmul a y = 0x01#8)
    ∧ GivesOutput (exec (.ginv a) s) s ⟨y ++ 0#24, 0#32, 0#32, 0#32⟩ 1

/-- gmul is commutative and associative, distributes over xor, is 0 at 0 and the identity at 1, and its
product by 02 is xtime (41_galois_field.md R101, R102). -/
def Obligations.GmulIsAFieldMultiplication : Prop :=
  ∀ a b c : Byte, gmul a b = gmul b a ∧ gmul (gmul a b) c = gmul a (gmul b c)
    ∧ gmul a (b ^^^ c) = gmul a b ^^^ gmul a c ∧ gmul a 0x00#8 = 0x00#8 ∧ gmul a 0x01#8 = a
    ∧ gmul a 0x02#8 = xtime a

/-- The inverse is the unique byte with product 1, 0 at 0, equal to the product of 254 copies, and an
involution (41_galois_field.md R103). -/
def Obligations.InverseIsTheUniqueInverse : Prop :=
  ∀ a : Byte, (a ≠ 0x00#8 → gmul a (inverse a) = 0x01#8 ∧ ∀ b, gmul a b = 0x01#8 → b = inverse a)
    ∧ inverse 0x00#8 = 0x00#8 ∧ inverse a = gpow a 254 ∧ inverse (inverse a) = a

/-! ## S-box -/

/-- SBOX completes in every state with the affine transform of its operand's inverse in byte 0 of DOUT, and
INVSBOX with the byte that SBOX maps to its operand; both write OUTLEN = 1 and change nothing else
(42_sbox.md R120, R121, R124, R125). -/
def Obligations.SboxAndInvsboxGiveTheTableByte : Prop :=
  (∀ (a : Byte) (s : State), ∃ y : Byte,
    (∀ i, i < 8 → y.getLsbD i
      = ((inverse a).getLsbD i ^^ (inverse a).getLsbD ((i + 4) % 8) ^^ (inverse a).getLsbD ((i + 5) % 8)
          ^^ (inverse a).getLsbD ((i + 6) % 8) ^^ (inverse a).getLsbD ((i + 7) % 8)
          ^^ (0x63#8).getLsbD i))
    ∧ GivesOutput (exec (.sbox a) s) s ⟨y ++ 0#24, 0#32, 0#32, 0#32⟩ 1)
  ∧ ∀ (a : Byte) (s : State), ∃ y : Byte, sbox y = a
    ∧ GivesOutput (exec (.invsbox a) s) s ⟨y ++ 0#24, 0#32, 0#32, 0#32⟩ 1

/-- Each table is the inverse of the other on every byte, SBOX has no fixed point and no x with
SBOX[x] = x xor FF, and the tables have the spec's six sample entries (42_sbox.md R121, R122). -/
def Obligations.SboxTablesAreInverse : Prop :=
  sbox 0x00#8 = 0x63#8 ∧ sbox 0x01#8 = 0x7C#8 ∧ sbox 0x53#8 = 0xED#8 ∧ sbox 0xFF#8 = 0x16#8
  ∧ invSbox 0x63#8 = 0x00#8 ∧ invSbox 0x00#8 = 0x52#8
  ∧ ∀ x : Byte, invSbox (sbox x) = x ∧ sbox (invSbox x) = x ∧ sbox x ≠ x ∧ sbox x ≠ x ^^^ 0xFF#8

/-! ## Key schedule -/

/-- KEYEXP outside a stream with length 32 completes with RK the expansion of KEY and KEYV = 1, and changes
nothing else; inside a stream it raises SequenceError whatever the length, and outside one any other length
raises InvalidKeyLength (43_key_schedule.md R144). -/
def Obligations.KeyexpExpandsTheKey : Prop :=
  ∀ (len : Byte) (s : State),
    (s.mode = .idle → len = 32#8 →
      ∃ t, exec (.keyexp len) s = .next t ∧ t.rk = keyExpansion s.key ∧ t.keyv = true ∧ Completed t
        ∧ SameHostRegs s t ∧ SameIv s t ∧ SameStream s t ∧ SameChain s t ∧ SameOutput s t ∧ SameError s t
        ∧ SameOutside s t)
    ∧ (s.mode ≠ .idle → TakesError (exec (.keyexp len) s) s .sequenceError)
    ∧ (s.mode = .idle → len ≠ 32#8 → TakesError (exec (.keyexp len) s) s .invalidKeyLength)

/-- KeyExpansion: the first eight words are the key's, and word i is word i - 8 xor word i - 1, the latter
through SubWord and RotWord and a round constant when i mod 8 = 0 and through SubWord when i mod 8 = 4
(43_key_schedule.md R143). -/
def Obligations.KeyExpansionFollowsItsRecurrence : Prop :=
  ∀ k : Key,
    let w := fun i : Nat => (keyExpansion k).toList.getD i 0#32
    (∀ i, i < 8 → w i = k.byte (4 * i) ++ k.byte (4 * i + 1) ++ k.byte (4 * i + 2) ++ k.byte (4 * i + 3))
    ∧ ∀ i, 8 ≤ i → i < 60 →
      w i = w (i - 8) ^^^
        (if i % 8 = 0 then subword (rotword (w (i - 1))) ^^^ rcon (i / 8)
          else if i % 8 = 4 then subword (w (i - 1))
          else w (i - 1))

/-- ROTWORD, SUBWORD and RCON complete in every state with the rotated word, the substituted word and the
round constant x^(j-1) in byte 0 of DOUT0; they write OUTLEN = 4 and change nothing else (43_key_schedule.md R140
to R142, R145 to R147). That the meaning of RCON with an index outside 1 to 7, which no word decodes to,
raises IllegalCommand is the model's inference (log entry 12). -/
def Obligations.RotwordSubwordRconGiveTheWord : Prop :=
  (∀ s : State, ∃ y : Word,
    wordByte y 0 = wordByte s.din.w0 1 ∧ wordByte y 1 = wordByte s.din.w0 2
    ∧ wordByte y 2 = wordByte s.din.w0 3 ∧ wordByte y 3 = wordByte s.din.w0 0
    ∧ GivesOutput (exec .rotword s) s ⟨y, 0#32, 0#32, 0#32⟩ 4)
  ∧ (∀ s : State, ∃ y : Word, (∀ j, j < 4 → wordByte y j = sbox (wordByte s.din.w0 j))
    ∧ GivesOutput (exec .subword s) s ⟨y, 0#32, 0#32, 0#32⟩ 4)
  ∧ ∀ (j : Byte) (s : State),
    (1 ≤ j.toNat ∧ j.toNat ≤ 7 →
      GivesOutput (exec (.rcon j) s) s ⟨gpow 0x02#8 (j.toNat - 1) ++ 0#24, 0#32, 0#32, 0#32⟩ 4)
    ∧ (j.toNat = 0 ∨ 8 ≤ j.toNat → TakesError (exec (.rcon j) s) s .illegalCommand)

/-! ## Block transform -/

/-- ENCB and DECB with a key expanded and length 16 complete with Cipher and InvCipher of DIN in DOUT,
write OUTLEN = 16 and change nothing else, inside a stream too; without a key they raise NoKey whatever the
length, and with one any other length raises InvalidBlockSize (44_block_transform.md R170, R171). With K_r
the words RK[4r] to RK[4r + 3], Cipher xors K_0, runs SubBytes, ShiftRows, MixColumns and the xor of K_r for
r = 1 to 13, and then round 14 with K_14 and without MixColumns; InvCipher runs the inverse steps from K_14
back to K_0 (R167 to R169, 10_state.md R43). SubBytes puts every byte through the S-box that SBOX reads,
ShiftRows and MixColumns move and mix the bytes as R163 and R165 give them, and each inverse step undoes its
step. -/
def Obligations.EncbAndDecbRunTheCipher : Prop :=
  (∀ (rk : Vector Word 60) (b : Block),
    let w := fun i : Nat => rk.toList.getD i 0#32
    let k := fun r : Nat => (⟨w (4 * r), w (4 * r + 1), w (4 * r + 2), w (4 * r + 3)⟩ : Block)
    (∃ e : Nat → Block, e 0 = b.xor (k 0)
      ∧ (∀ r, 1 ≤ r → r ≤ 13 → e r = (mixColumns (shiftRows (subBytes (e (r - 1))))).xor (k r))
      ∧ cipher rk b = (shiftRows (subBytes (e 13))).xor (k 14))
    ∧ ∃ d : Nat → Block, d 14 = invSubBytes (invShiftRows (b.xor (k 14)))
      ∧ (∀ r, 1 ≤ r → r ≤ 13 →
        d r = invSubBytes (invShiftRows (invMixColumns ((d (r + 1)).xor (k r)))))
      ∧ invCipher rk b = (d 1).xor (k 0))
  ∧ (∀ (b : Block) (s : State),
    (∀ i, i < 16 → (subBytes b).byte i = sbox (b.byte i)
      ∧ GivesOutput (exec (.sbox (b.byte i)) s) s ⟨(subBytes b).byte i ++ 0#24, 0#32, 0#32, 0#32⟩ 1)
    ∧ (shiftRows b).bytes = [0, 5, 10, 15, 4, 9, 14, 3, 8, 13, 2, 7, 12, 1, 6, 11].map b.byte
    ∧ (∀ r c, r < 4 → c < 4 → (mixColumns b).byte (r + 4 * c)
        = gmul 0x02#8 (b.byte (r + 4 * c)) ^^^ gmul 0x03#8 (b.byte ((r + 1) % 4 + 4 * c))
          ^^^ b.byte ((r + 2) % 4 + 4 * c) ^^^ b.byte ((r + 3) % 4 + 4 * c))
    ∧ invSubBytes (subBytes b) = b ∧ invShiftRows (shiftRows b) = b ∧ invMixColumns (mixColumns b) = b)
  ∧ ∀ (len : Byte) (s : State),
    (s.keyv = true → len = 16#8 →
      GivesOutput (exec (.encb len) s) s (cipher s.rk s.din) 16
      ∧ GivesOutput (exec (.decb len) s) s (invCipher s.rk s.din) 16)
    ∧ (s.keyv = false →
      TakesError (exec (.encb len) s) s .noKey ∧ TakesError (exec (.decb len) s) s .noKey)
    ∧ (s.keyv = true → len ≠ 16#8 →
      TakesError (exec (.encb len) s) s .invalidBlockSize
      ∧ TakesError (exec (.decb len) s) s .invalidBlockSize)

/-- The seven primitive round commands complete in every state with the transformed DIN in DOUT, byte by
byte as the spec gives it; they write OUTLEN = 16 and change nothing else (44_block_transform.md R161 to
R166, R172 to R178). -/
def Obligations.PrimitiveRoundCommandsTransformTheBlock : Prop :=
  ∀ s : State,
    (∃ b, GivesOutput (exec .subbytes s) s b 16 ∧ ∀ i, i < 16 → b.byte i = sbox (s.din.byte i))
    ∧ (∃ b, GivesOutput (exec .invsubbytes s) s b 16 ∧ ∀ i, i < 16 → b.byte i = invSbox (s.din.byte i))
    ∧ (∃ b, GivesOutput (exec .shiftrows s) s b 16
        ∧ b.bytes = [0, 5, 10, 15, 4, 9, 14, 3, 8, 13, 2, 7, 12, 1, 6, 11].map s.din.byte)
    ∧ (∃ b, GivesOutput (exec .invshiftrows s) s b 16
        ∧ b.bytes = [0, 13, 10, 7, 4, 1, 14, 11, 8, 5, 2, 15, 12, 9, 6, 3].map s.din.byte)
    ∧ (∃ b, GivesOutput (exec .mixcolumns s) s b 16
        ∧ ∀ r c, r < 4 → c < 4 → b.byte (r + 4 * c)
          = gmul 0x02#8 (s.din.byte (r + 4 * c)) ^^^ gmul 0x03#8 (s.din.byte ((r + 1) % 4 + 4 * c))
            ^^^ s.din.byte ((r + 2) % 4 + 4 * c) ^^^ s.din.byte ((r + 3) % 4 + 4 * c))
    ∧ (∃ b, GivesOutput (exec .invmixcolumns s) s b 16
        ∧ ∀ r c, r < 4 → c < 4 → b.byte (r + 4 * c)
          = gmul 0x0E#8 (s.din.byte (r + 4 * c)) ^^^ gmul 0x0B#8 (s.din.byte ((r + 1) % 4 + 4 * c))
            ^^^ gmul 0x0D#8 (s.din.byte ((r + 2) % 4 + 4 * c))
            ^^^ gmul 0x09#8 (s.din.byte ((r + 3) % 4 + 4 * c)))
    ∧ (∃ b, GivesOutput (exec .addrk s) s b 16
        ∧ ∀ i, i < 16 → b.byte i = s.din.byte i ^^^ s.iv.byte i)

/-- Each inverse transformation undoes its transformation on every Block, both ways
(44_block_transform.md R162, R164, R166, R167). -/
def Obligations.RoundTransformationsAreInverted : Prop :=
  ∀ b k : Block,
    invSubBytes (subBytes b) = b ∧ subBytes (invSubBytes b) = b
    ∧ invShiftRows (shiftRows b) = b ∧ shiftRows (invShiftRows b) = b
    ∧ invMixColumns (mixColumns b) = b ∧ mixColumns (invMixColumns b) = b
    ∧ (b.xor k).xor k = b

/-- Under every round-key file, InvCipher undoes Cipher and Cipher undoes InvCipher
(44_block_transform.md R169). -/
def Obligations.DecryptionInvertsEncryption : Prop :=
  ∀ (rk : Vector Word 60) (b : Block), invCipher rk (cipher rk b) = b ∧ cipher rk (invCipher rk b) = b

/-! ## Padding -/

/-- PAD with a count of at most 15 completes in every state with the first t bytes of DIN and the pad after
them in DOUT, writes OUTLEN = 16 and changes nothing else (45_padding.md R202, R204). That the meaning of
PAD with a larger count, which no word decodes to, raises IllegalCommand is the model's inference (log
entry 12). -/
def Obligations.PadFillsTheTail : Prop :=
  ∀ (t : Byte) (s : State),
    (t.toNat ≤ 15 → ∃ b, GivesOutput (exec (.pad t) s) s b 16
      ∧ ∀ i, i < 16 → b.byte i = if i < t.toNat then s.din.byte i else 16#8 - t)
    ∧ (15 < t.toNat → TakesError (exec (.pad t) s) s .illegalCommand)

/-- UNPAD completes with DIN in DOUT and OUTLEN = 16 - N when the last N bytes of DIN have the value N, for
N from 1 to 16, and changes nothing else; otherwise it raises InvalidPadding (45_padding.md R203, R205). -/
def Obligations.UnpadChecksThePadding : Prop :=
  ∀ s : State,
    (∀ n : Nat, 1 ≤ n → n ≤ 16 → (∀ i, 16 - n ≤ i → i < 16 → (s.din.byte i).toNat = n) →
      GivesOutput (exec .unpad s) s s.din (16 - n))
    ∧ ((¬ ∃ n : Nat, 1 ≤ n ∧ n ≤ 16 ∧ ∀ i, 16 - n ≤ i → i < 16 → (s.din.byte i).toNat = n) →
      TakesError (exec .unpad s) s .invalidPadding)

/-- The padding of a padded Block is its pad length, so that UNPAD of PAD t's output gives OUTLEN = t and
the first t bytes; and unpadding a padded message gives the message back (45_padding.md R206). -/
def Obligations.PaddingRoundTrips : Prop :=
  (∀ (b : Block) (t : Nat), t ≤ 15 → padcheck (padblock b t) = some (16 - t))
  ∧ (∀ (t : Byte) (s u v : State), t.toNat ≤ 15 → exec (.pad t) s = .next u →
      exec .unpad { u with din := u.dout } = .next v →
      v.err = u.err ∧ v.outlen.toNat = t.toNat ∧ ∀ i, i < t.toNat → v.dout.byte i = s.din.byte i)
  ∧ ∀ data : List Byte, unpad (pad data) = some data

/-- Replacing the final byte of a validly padded Block by another value: with a pad of at least 2 the
result is valid for the value 1 alone, with pad length 1; with a pad of 1 it is valid exactly for a value k
from 2 to 16 whose bytes 16 - k to 14 all equal k (45_padding.md R207). -/
def Obligations.TamperedFinalByteIsRejected : Prop :=
  ∀ (b : Block) (n : Nat) (v : Byte), padcheck b = some n → v.toNat ≠ n →
    let b' := Block.ofBytes fun i => if i = 15 then v else b.byte i
    (2 ≤ n → padcheck b' = if v = 0x01#8 then some 1 else none)
    ∧ (n = 1 → (padcheck b' ≠ none ↔
        2 ≤ v.toNat ∧ v.toNat ≤ 16 ∧ ∀ i, 16 - v.toNat ≤ i → i ≤ 14 → b.byte i = v))

/-! ## CBC -/

/-- CBCE_INIT outside a stream with a key expanded opens an encryption stream: CHAIN is the IV, BLKREM is
L div 16 + 1 and TAIL L mod 16 for L = MSGLEN, MODE is ENC; with GEN = 1 the IV is first replaced by the RNG
provider's answer, and its failure raises RngFailure with the IV kept. Inside a stream it raises
SequenceError, and without a key NoKey (46_cbc.md R224, R226, 60_exceptions.md R285). The answer is a free
value (log entry 4). -/
def Obligations.CbceInitOpensAnEncryptionStream : Prop :=
  ∀ (gen : Bool) (s : State),
    (s.mode ≠ .idle → TakesError (exec (.cbceInit gen) s) s .sequenceError)
    ∧ (s.mode = .idle → s.keyv = false → TakesError (exec (.cbceInit gen) s) s .noKey)
    ∧ (s.mode = .idle → s.keyv = true → gen = false →
        ∃ t, exec (.cbceInit gen) s = .next t ∧ t.iv = s.iv ∧ t.chain = s.iv
          ∧ t.blkrem.toNat = s.msglen.toNat / 16 + 1 ∧ t.tail.toNat = s.msglen.toNat % 16 ∧ t.mode = .enc
          ∧ Completed t ∧ SameOutput s t ∧ StreamFrame s t ∧ SameOutside s t)
    ∧ (s.mode = .idle → s.keyv = true → gen = true →
        match nextAnswer s with
        | none => TakesError (exec (.cbceInit gen) s) (afterDraw s) .rngFailure
        | some v =>
          ∃ t, exec (.cbceInit gen) s = .next t ∧ t.iv = v ∧ t.chain = v
            ∧ t.blkrem.toNat = s.msglen.toNat / 16 + 1 ∧ t.tail.toNat = s.msglen.toNat % 16
            ∧ t.mode = .enc ∧ Completed t ∧ SameOutput s t ∧ StreamFrame s t
            ∧ SameOutside (afterDraw s) t)

/-- CBCE inside an encryption stream completes with C = Cipher(x xor CHAIN) in DOUT and CHAIN, where x is
DIN, and at the final block DIN's first TAIL bytes padded; OUTLEN is 16, BLKREM falls by 1, and at the
final block MODE and TAIL become 0; nothing else changes. In any other mode it raises SequenceError
(46_cbc.md R227). -/
def Obligations.CbceEncryptsAndChains : Prop :=
  ∀ s : State,
    (s.mode ≠ .enc → TakesError (exec .cbce s) s .sequenceError)
    ∧ (s.mode = .enc → 1 ≤ s.blkrem.toNat →
        ∃ (t : State) (x : Block), exec .cbce s = .next t
          ∧ (∀ i, i < 16 → x.byte i
              = if s.blkrem = 1#32 ∧ s.tail.toNat ≤ i then 16#8 - s.tail.setWidth 8 else s.din.byte i)
          ∧ t.dout = cipher s.rk (x.xor s.chain) ∧ t.chain = t.dout ∧ t.outlen = 16#5
          ∧ t.blkrem.toNat = s.blkrem.toNat - 1
          ∧ (s.blkrem = 1#32 → t.mode = .idle ∧ t.tail = 0#4)
          ∧ (s.blkrem ≠ 1#32 → t.mode = .enc ∧ t.tail = s.tail)
          ∧ Completed t ∧ SameIv s t ∧ StreamFrame s t ∧ SameOutside s t)

/-- CBCD_INIT outside a stream with a key expanded and MSGLEN a positive multiple of 16 opens a decryption
stream: CHAIN is the IV, BLKREM is MSGLEN div 16, MODE is DEC, and nothing else changes. The errors are, in
this order, SequenceError, NoKey and InvalidCiphertextLength (46_cbc.md R224, R228, 60_exceptions.md
R272). -/
def Obligations.CbcdInitOpensADecryptionStream : Prop :=
  ∀ s : State,
    (s.mode ≠ .idle → TakesError (exec .cbcdInit s) s .sequenceError)
    ∧ (s.mode = .idle → s.keyv = false → TakesError (exec .cbcdInit s) s .noKey)
    ∧ (s.mode = .idle → s.keyv = true → s.msglen.toNat = 0 ∨ s.msglen.toNat % 16 ≠ 0 →
        TakesError (exec .cbcdInit s) s .invalidCiphertextLength)
    ∧ (s.mode = .idle → s.keyv = true → 0 < s.msglen.toNat → s.msglen.toNat % 16 = 0 →
        ∃ t, exec .cbcdInit s = .next t ∧ t.chain = s.iv ∧ t.blkrem.toNat = s.msglen.toNat / 16
          ∧ t.mode = .dec ∧ t.tail = s.tail ∧ Completed t ∧ SameIv s t ∧ SameOutput s t
          ∧ StreamFrame s t ∧ SameOutside s t)

/-- CBCD inside a decryption stream completes with P = InvCipher(DIN) xor CHAIN in DOUT and DIN in CHAIN.
Before the final block OUTLEN is 16 and BLKREM falls by 1; at the final block with a valid padding of N,
OUTLEN is 16 - N, BLKREM is 0 and MODE is IDLE; nothing else changes. An invalid padding there raises
InvalidPadding, and any other mode SequenceError (46_cbc.md R229). -/
def Obligations.CbcdDecryptsAndChains : Prop :=
  ∀ s : State,
    (s.mode ≠ .dec → TakesError (exec .cbcd s) s .sequenceError)
    ∧ (s.mode = .dec → 2 ≤ s.blkrem.toNat →
        ∃ t, exec .cbcd s = .next t ∧ t.dout = (invCipher s.rk s.din).xor s.chain ∧ t.outlen = 16#5
          ∧ t.chain = s.din ∧ t.blkrem.toNat = s.blkrem.toNat - 1 ∧ t.mode = .dec ∧ t.tail = s.tail
          ∧ Completed t ∧ SameIv s t ∧ StreamFrame s t ∧ SameOutside s t)
    ∧ (s.mode = .dec → s.blkrem = 1#32 →
        match padcheck ((invCipher s.rk s.din).xor s.chain) with
        | none => TakesError (exec .cbcd s) s .invalidPadding
        | some n =>
          ∃ t, exec .cbcd s = .next t ∧ t.dout = (invCipher s.rk s.din).xor s.chain
            ∧ t.outlen.toNat = 16 - n ∧ t.chain = s.din ∧ t.blkrem = 0#32 ∧ t.mode = .idle
            ∧ t.tail = s.tail ∧ Completed t ∧ SameIv s t ∧ StreamFrame s t ∧ SameOutside s t)

/-- Encryption equivalence: a stream opened by CBCE_INIT for a plaintext P of MSGLEN bytes and fed its
blocks, whatever stands after the last data byte of the final one, gives block by block CBC_Encrypt of P
under the expanded key and the IV that stands in IV0..IV3 after the opening; the stream is then closed,
CHAIN holds the last ciphertext block, and the bytes read by OUTLEN are the ciphertext (46_cbc.md R230).
The feeding of a block is the model's form (log entry 16). -/
def Obligations.EncryptionStreamComputesCbc : Prop :=
  ∀ (gen : Bool) (s s1 : State) (key : Key) (p : List Byte) (bs : List Block),
    s.keyv = true → s.rk = keyExpansion key → s.msglen.toNat = p.length → s.mode = .idle →
    exec (.cbceInit gen) s = .next s1 → s1.mode = .enc → bs.length = p.length / 16 + 1 →
    (∀ j i, j < bs.length → i < 16 → 16 * j + i < p.length →
      (bs.getD j Block.zero).byte i = p.getD (16 * j + i) 0x00#8) →
    ∃ outs s2, feed .cbce bs s1 = some (outs, s2)
      ∧ outs.map Prod.fst = blocksOf (cbcEncrypt key s1.iv p)
      ∧ readOut outs = cbcEncrypt key s1.iv p
      ∧ s2.mode = .idle ∧ s2.err = s1.err
      ∧ some s2.chain = (blocksOf (cbcEncrypt key s1.iv p)).getLast?

/-- Decryption equivalence: CBCD_INIT and one CBCD per block of a ciphertext C of MSGLEN bytes fail as
CBC_Decrypt fails, and otherwise the first OUTLEN bytes of each DOUT, in order, are its result
(46_cbc.md R231). The feeding of a block is the model's form (log entry 16). -/
def Obligations.DecryptionStreamComputesCbc : Prop :=
  ∀ (s s1 : State) (key : Key) (c : List Byte),
    s.keyv = true → s.rk = keyExpansion key → s.msglen.toNat = c.length → s.mode = .idle →
    s.err = false → s.errcode = none → exec .cbcdInit s = .next s1 →
    match cbcDecrypt key s.iv c with
    | .error .invalidCiphertextLength => s1.errcode = some .invalidCiphertextLength
    | .error e => ∃ outs s2, feed .cbcd (blocksOf c) s1 = some (outs, s2) ∧ s2.errcode = some e
        ∧ e = .invalidPadding
    | .ok p => ∃ outs s2, feed .cbcd (blocksOf c) s1 = some (outs, s2) ∧ s2.err = false
        ∧ s2.mode = .idle ∧ readOut outs = p

/-- For every key, IV and plaintext of any length, decrypting the encryption gives the plaintext back
(46_cbc.md R232). -/
def Obligations.CbcRoundTrip : Prop :=
  ∀ (key : Key) (iv : Block) (p : List Byte), cbcDecrypt key iv (cbcEncrypt key iv p) = .ok p

/-! ## Rules about every command -/

/-- Every command completes in every state: it answers a next state with completion's bookkeeping done
(10_state.md R49, 93_implementation_defined.md part 1). -/
def Obligations.EveryCommandCompletes : Prop :=
  ∀ (i : Instr) (s : State), ∃ t, exec i s = .next t ∧ Completed t

/-- An error commits exactly the writes of the error rule and nothing of the command's own; only the RNG
provider, when it was asked, has moved on (60_exceptions.md R270). -/
def Obligations.ErrorsCommitOnlyTheErrorState : Prop :=
  ∀ (i : Instr) (s t : State), s.err = false → exec i s = .next t → t.err = true →
    ∃ (e : ErrorCode) (u : State), (u = s ∨ (i = .cbceInit true ∧ u = afterDraw s))
      ∧ TakesError (exec i s) u e

/-- The codes are the spec's numbers, and a command raises only the errors the table lists it for;
TruncatedInput is raised by none (60_exceptions.md R260, R262). -/
def Obligations.ErrorsAreRaisedOnlyWhereListed : Prop :=
  [ErrorCode.invalidKeyLength.code, ErrorCode.invalidBlockSize.code, ErrorCode.invalidPadding.code,
    ErrorCode.invalidCiphertextLength.code, ErrorCode.truncatedInput.code, ErrorCode.rngFailure.code,
    ErrorCode.illegalCommand.code, ErrorCode.noKey.code, ErrorCode.sequenceError.code]
    = [0x01#8, 0x02#8, 0x03#8, 0x04#8, 0x05#8, 0x06#8, 0x10#8, 0x11#8, 0x12#8]
  ∧ ∀ (i : Instr) (s t : State) (e : ErrorCode), s.errcode = none → exec i s = .next t →
    t.errcode = some e → mayRaise i e

/-- The commands other than the four stream commands, KEYEXP and ABORT leave MODE, BLKREM, TAIL and CHAIN
as they are unless they raise an error, and an error of theirs closes the stream; KEYEXP, CBCE_INIT and
CBCD_INIT inside a stream raise SequenceError (46_cbc.md R234). -/
def Obligations.OtherCommandsLeaveTheStream : Prop :=
  ∀ (i : Instr) (s t : State), s.err = false → s.mode ≠ .idle → exec i s = .next t →
    (i.op ∉ [Op.keyexp, Op.cbceInit, Op.cbce, Op.cbcdInit, Op.cbcd, Op.abort] →
      (t.err = false → SameStream s t ∧ SameChain s t)
      ∧ (t.err = true → t.mode = .idle ∧ t.blkrem = 0#32 ∧ t.tail = 0#4))
    ∧ (i.op ∈ [Op.keyexp, Op.cbceInit, Op.cbcdInit] → t.errcode = some .sequenceError ∧ t.mode = .idle)

/-- No command writes a register that is the host's (CTRL, MSGLEN, KEY, DIN), sets or clears REJECT, or
writes IV, but for CBCE_INIT with GEN = 1, which may write IV (10_state.md R24, R29, R35, R38, R39, R41). -/
def Obligations.CommandsNeverWriteHostRegisters : Prop :=
  ∀ (i : Instr) (s t : State), exec i s = .next t →
    SameHostRegs s t ∧ (i ≠ .cbceInit true → SameIv s t)

/-- Whatever happens in a cycle, RK and KEYV change only by reset or by the completion of a KEYEXP, which
leaves KEYV = 1 (10_state.md R30, R43). -/
def Obligations.OnlyKeyexpAndResetWriteRoundKeys : Prop :=
  ∀ s t : State, step s = .next t → ¬ SameRoundKeys s t →
    (cycleInput s).reset = true
    ∨ (s.busy = true ∧ t.busy = false ∧ t.keyv = true
        ∧ ∃ w len, s.pending = some w ∧ decode w = .ok (.keyexp len))

/-! ## Timing -/

/-- What a command's latency depends on: two accepted words of the same command, CBCE_INIT with GEN = 1
apart, or two illegal words, take equally long in any two states, and every latency is at least 1
(70_reset_and_hazards.md R320, R322). The count `latLeft` is the model's own (log entry 2). That CBCE_INIT
with GEN = 1 takes equally long when as many requests were answered before is the model's choice too (log
entry 3): R320 lets the provider's time vary. -/
def Obligations.LatencyDependsOnTheDecodedCommandOnly : Prop :=
  ∀ (s t : State) (v w : Word), s.busy = false → s.err = false → t.busy = false → t.err = false →
    (∀ i j, decode v = .ok i → decode w = .ok j → i.op = j.op → i ≠ .cbceInit true → j ≠ .cbceInit true →
      (hostWrite 0x14#8 v s).latLeft = (hostWrite 0x14#8 w t).latLeft)
    ∧ (∀ a b, decode v = .error a → decode w = .error b →
      (hostWrite 0x14#8 v s).latLeft = (hostWrite 0x14#8 w t).latLeft)
    ∧ (s.rngDraws = t.rngDraws → (hostWrite 0x14#8 v s).latLeft = (hostWrite 0x14#8 v t).latLeft)
    ∧ 1 ≤ (hostWrite 0x14#8 v s).latLeft

/-- The host's WAIT loop ends with BUSY = 0 (70_reset_and_hazards.md R314). The bound on its polls, one more
than the cycles the running command has left, is the model's own: it counts one poll a cycle and the cycles
in `latLeft` (log entries 1, 2 and 11). -/
def Obligations.WaitLoopEnds : Prop :=
  ∀ s : State, Inv s → ∃ t, waitIdle (s.latLeft + 1) s = some t ∧ t.busy = false

/-! ## Host programs -/

/-- What the statements of a host program do to an idle core: LDKEY, LDIV, LDIN and SETLEN fill the registers
word by word, CLRDONE, CLRERR and CLRREJ clear their flag alone, RDOUT changes nothing and ends with DOUT3 on
the bus, and a mnemonic without operands issues the word with its default immediate (30_encoding.md R89,
R90). The response `resp` is the model's own (log entry 10). -/
def Obligations.HostStatementsAccessTheRegisters : Prop :=
  ∀ s : State, s.busy = false →
    (∀ k, perform (HostStmt.ldkey k).expand s = { s with key := k, resp := some .ack })
    ∧ (∀ b, perform (HostStmt.ldiv b).expand s = { s with iv := b, resp := some .ack })
    ∧ (∀ b, perform (HostStmt.ldin b).expand s = { s with din := b, resp := some .ack })
    ∧ (∀ n, perform (HostStmt.setlen n).expand s = { s with msglen := n, resp := some .ack })
    ∧ perform HostStmt.clrdone.expand s = { s with done := false, resp := some .ack }
    ∧ perform HostStmt.clrerr.expand s = { s with err := false, errcode := none, resp := some .ack }
    ∧ perform HostStmt.clrrej.expand s = { s with reject := false, resp := some .ack }
    ∧ perform HostStmt.rdout.expand s = { s with resp := some (.data s.dout.w3) }
    ∧ (s.err = false → ∀ op w, (op, w) ∈ [(Op.keyexp, 0x00002010#32), (Op.encb, 0x00001020#32),
          (Op.decb, 0x00001021#32), (Op.cbceInit, 0x00000040#32), (Op.cbcd, 0x00000043#32)] →
        (perform (HostStmt.mnem op none none).expand s).pending = some w)
end

