-- ==== Sys2Proof/Laws/Bytes.lean ====
section
/-! SUPPORT. Bytes of words and Blocks: reading a byte back from what was put together, and two Blocks with
the same sixteen bytes are equal. -/

namespace Sys2Proof

/-- The bits of a Word put together from four bytes. -/
theorem getLsbD_wordOfBytes (a b c d : Byte) (i : Nat) :
    (wordOfBytes a b c d).getLsbD i
      = if i < 8 then d.getLsbD i
        else if i < 16 then c.getLsbD (i - 8)
        else if i < 24 then b.getLsbD (i - 16)
        else a.getLsbD (i - 24) := by
  have h := BitVec.getLsbD_append (x := a ++ b ++ c) (y := d) (i := i)
  refine (show (wordOfBytes a b c d).getLsbD i = _ from h).trans ?_
  simp only [BitVec.getLsbD_append, Nat.sub_sub]
  have h1 : (i - 8 < 8) = (i < 16) := propext (by omega)
  have h2 : (i - (8 + 8) < 8) = (i < 24) := propext (by omega)
  simp only [h1, h2]

/-- Byte j of a Word put together from four bytes. -/
theorem wordByte_wordOfBytes (a b c d : Byte) (j : Nat) (h : j < 4) :
    wordByte (wordOfBytes a b c d) j
      = match j with
        | 0 => a
        | 1 => b
        | 2 => c
        | _ => d := by
  apply BitVec.eq_of_getLsbD_eq
  intro i hi
  simp only [wordByte, BitVec.getLsbD_extractLsb', getLsbD_wordOfBytes, hi, decide_true, Bool.true_and]
  interval_cases j <;> (simp only []; split_ifs <;> first | omega | (congr 1; try omega))

@[simp] theorem wordByte_wordOfBytes_zero (a b c d : Byte) : wordByte (wordOfBytes a b c d) 0 = a :=
  wordByte_wordOfBytes a b c d 0 (by omega)
@[simp] theorem wordByte_wordOfBytes_one (a b c d : Byte) : wordByte (wordOfBytes a b c d) 1 = b :=
  wordByte_wordOfBytes a b c d 1 (by omega)
@[simp] theorem wordByte_wordOfBytes_two (a b c d : Byte) : wordByte (wordOfBytes a b c d) 2 = c :=
  wordByte_wordOfBytes a b c d 2 (by omega)
@[simp] theorem wordByte_wordOfBytes_three (a b c d : Byte) : wordByte (wordOfBytes a b c d) 3 = d :=
  wordByte_wordOfBytes a b c d 3 (by omega)

/-- Two words with the same four bytes are equal. -/
theorem word_eq_of_bytes {v w : Word} (h : ∀ j, j < 4 → wordByte v j = wordByte w j) : v = w := by
  apply BitVec.eq_of_getLsbD_eq
  intro i hi
  have hb := congrArg (fun b : Byte => b.getLsbD (i % 8)) (h (3 - i / 8) (by omega))
  have e : 24 - 8 * (3 - i / 8) + i % 8 = i := by omega
  simpa [wordByte, BitVec.getLsbD_extractLsb', e, Nat.mod_lt] using hb

/-- A Word is what its four bytes put together. -/
theorem wordOfBytes_wordByte (w : Word) :
    wordOfBytes (wordByte w 0) (wordByte w 1) (wordByte w 2) (wordByte w 3) = w :=
  word_eq_of_bytes fun j hj => by interval_cases j <;> simp

@[simp] theorem wordByte_xor (v w : Word) (j : Nat) :
    wordByte (v ^^^ w) j = wordByte v j ^^^ wordByte w j := BitVec.extractLsb'_xor

/-- Byte i of the Block whose bytes are `f`: the two maps of 20_memory.md R62 are inverse to each other. -/
theorem byte_ofBytes (f : Nat → Byte) (i : Nat) (h : i < 16) : (Block.ofBytes f).byte i = f i := by
  interval_cases i <;> simp [Block.byte, Block.word, Block.ofBytes]

/-- Two Blocks with the same sixteen bytes are equal. -/
theorem block_eq_of_bytes {a b : Block} (h : ∀ i, i < 16 → a.byte i = b.byte i) : a = b := by
  have hw : ∀ k, k < 4 → a.word k = b.word k := fun k hk =>
    word_eq_of_bytes fun j hj => by
      have := h (4 * k + j) (by omega)
      have e1 : (4 * k + j) / 4 = k := by omega
      have e2 : (4 * k + j) % 4 = j := by omega
      simpa only [Block.byte, e1, e2] using this
  cases a
  cases b
  have h0 := hw 0 (by omega)
  have h1 := hw 1 (by omega)
  have h2 := hw 2 (by omega)
  have h3 := hw 3 (by omega)
  simp only [Block.word] at h0 h1 h2 h3
  rw [h0, h1, h2, h3]

/-- A Block is what its sixteen bytes put together. -/
theorem ofBytes_byte (b : Block) : Block.ofBytes b.byte = b :=
  block_eq_of_bytes fun i hi => byte_ofBytes _ i hi

/-- The state matrix entry of a Block given as a matrix (44_block_transform.md R160). -/
theorem entry_ofMatrix (s : Nat → Nat → Byte) (r c : Nat) (hr : r < 4) (hc : c < 4) :
    (Block.ofMatrix s).entry r c = s r c := by
  have e1 : (r + 4 * c) % 4 = r := by omega
  have e2 : (r + 4 * c) / 4 = c := by omega
  simp only [Block.entry, Block.ofMatrix, byte_ofBytes _ _ (show r + 4 * c < 16 by omega), e1, e2]

/-- Two Blocks with the same state matrix are equal. -/
theorem block_eq_of_entries {a b : Block} (h : ∀ r c, r < 4 → c < 4 → a.entry r c = b.entry r c) :
    a = b :=
  block_eq_of_bytes fun i hi => by
    have := h (i % 4) (i / 4) (by omega) (by omega)
    have e : i % 4 + 4 * (i / 4) = i := by omega
    simpa only [Block.entry, e] using this

@[simp] theorem byte_xor (a b : Block) (i : Nat) : (a.xor b).byte i = a.byte i ^^^ b.byte i := by
  unfold Block.byte Block.xor Block.word
  split <;> simp

/-- Xoring the same Block twice changes nothing. -/
@[simp] theorem xor_xor_cancel (a b : Block) : (a.xor b).xor b = a := by
  cases a
  cases b
  simp [Block.xor]

/-- The sixteen bytes of a Block, by index. -/
theorem bytes_getD (b : Block) (i : Nat) (h : i < 16) : b.bytes.getD i 0x00#8 = b.byte i := by
  simp [Block.bytes, List.getD, h]

@[simp] theorem bytes_length (b : Block) : b.bytes.length = 16 := by simp [Block.bytes]

end Sys2Proof
end

