-- ==== Sys2Proof/Laws/Decode.lean ====
section
/-! SUPPORT. The fields of a command word: a word is its four fields, each field of an encoded word is what
was put there, and what belonging to a row says field by field. -/

namespace Sys2Proof

@[simp] theorem opField_enc (op f1 f2 : Byte) : opField (enc op f1 f2) = op :=
  BitVec.extractLsb'_append_eq_right

/-- The bits of an encoded word. -/
theorem getLsbD_enc (op f1 f2 : Byte) (i : Nat) :
    (enc op f1 f2).getLsbD i
      = if i < 8 then op.getLsbD i
        else if i < 16 then f1.getLsbD (i - 8)
        else if i < 24 then f2.getLsbD (i - 16)
        else false := by
  have h := BitVec.getLsbD_append (x := 0x00#8 ++ f2 ++ f1) (y := op) (i := i)
  refine (show (enc op f1 f2).getLsbD i = _ from h).trans ?_
  simp only [BitVec.getLsbD_append, Nat.sub_sub]
  have h1 : (i - 8 < 8) = (i < 16) := propext (by omega)
  have h2 : (i - (8 + 8) < 8) = (i < 24) := propext (by omega)
  simp only [h1, h2]
  split_ifs <;> simp

@[simp] theorem f1Field_enc (op f1 f2 : Byte) : f1Field (enc op f1 f2) = f1 := by
  apply BitVec.eq_of_getLsbD_eq
  intro i hi
  simp only [f1Field, BitVec.getLsbD_extractLsb', getLsbD_enc, hi, decide_true, Bool.true_and]
  split_ifs <;> first | omega | (congr 1; omega)

@[simp] theorem f2Field_enc (op f1 f2 : Byte) : f2Field (enc op f1 f2) = f2 := by
  apply BitVec.eq_of_getLsbD_eq
  intro i hi
  simp only [f2Field, BitVec.getLsbD_extractLsb', getLsbD_enc, hi, decide_true, Bool.true_and]
  split_ifs <;> first | omega | (congr 1; omega)

@[simp] theorem rsvField_enc (op f1 f2 : Byte) : rsvField (enc op f1 f2) = 0x00#8 := by
  apply BitVec.eq_of_getLsbD_eq
  intro i hi
  simp only [rsvField, BitVec.getLsbD_extractLsb', getLsbD_enc, hi, decide_true, Bool.true_and]
  split_ifs <;> first | omega | simp

/-- Two words with the same four fields are equal. -/
theorem word_eq_of_fields {v w : Word} (h0 : opField v = opField w) (h1 : f1Field v = f1Field w)
    (h2 : f2Field v = f2Field w) (h3 : rsvField v = rsvField w) : v = w := by
  apply BitVec.eq_of_getLsbD_eq
  intro i hi
  have g : ∀ n, n + i % 8 = i → v.extractLsb' n 8 = w.extractLsb' n 8 → v.getLsbD i = w.getLsbD i := by
    intro n e hn
    have := congrArg (fun b : Byte => b.getLsbD (i % 8)) hn
    simpa [BitVec.getLsbD_extractLsb', e, Nat.mod_lt] using this
  rcases (by omega : i < 8 ∨ (8 ≤ i ∧ i < 16) ∨ (16 ≤ i ∧ i < 24) ∨ 24 ≤ i) with h | h | h | h
  · exact g 0 (by omega) h0
  · exact g 8 (by omega) h1
  · exact g 16 (by omega) h2
  · exact g 24 (by omega) h3

/-- A word with RSV = 0 is the encoding of its other fields. -/
theorem enc_fields {w : Word} (h : rsvField w = 0x00#8) :
    enc (opField w) (f1Field w) (f2Field w) = w :=
  word_eq_of_fields (by simp) (by simp) (by simp) (by simp [h])

/-- `enc` in the shifts of 30_encoding.md R80: `F2 << 16 | F1 << 8 | OP`. -/
theorem enc_eq_shifts (op f1 f2 : Byte) :
    enc op f1 f2 = (f2.setWidth 32 <<< 16) ||| (f1.setWidth 32 <<< 8) ||| op.setWidth 32 := by
  apply BitVec.eq_of_getLsbD_eq
  intro i hi
  simp only [getLsbD_enc, BitVec.getLsbD_or, BitVec.getLsbD_shiftLeft, BitVec.getLsbD_setWidth]
  have z : ∀ (b : Byte) (n : Nat), 8 ≤ n → b.getLsbD n = false := fun b n h => BitVec.getLsbD_of_ge b n h
  rcases (by omega : i < 8 ∨ (8 ≤ i ∧ i < 16) ∨ (16 ≤ i ∧ i < 24) ∨ 24 ≤ i) with h | h | h | h
  · simp [h, hi, show i < 16 by omega]
  · simp [show ¬ i < 8 by omega, show i < 16 by omega, hi, show i - 8 < 32 by omega,
      z op i (by omega)]
  · simp [show ¬ i < 8 by omega, show ¬ i < 16 by omega, show i < 24 by omega, hi,
      show i - 16 < 32 by omega, z op i (by omega), z f1 (i - 8) (by omega)]
  · simp [show ¬ i < 8 by omega, show ¬ i < 16 by omega, show ¬ i < 24 by omega,
      z op i (by omega), z f1 (i - 8) (by omega), z f2 (i - 16) (by omega)]

/-- A word belongs to a row exactly when each of its four fields does. -/
theorem Row.holds_iff (r : Row) (w : Word) :
    r.holds w = true ↔
      opField w &&& opField r.mask = opField r.pattern
      ∧ f1Field w &&& f1Field r.mask = f1Field r.pattern
      ∧ f2Field w &&& f2Field r.mask = f2Field r.pattern
      ∧ rsvField w &&& rsvField r.mask = rsvField r.pattern := by
  have e : ∀ n, (w &&& r.mask).extractLsb' n 8 = w.extractLsb' n 8 &&& r.mask.extractLsb' n 8 :=
    fun n => BitVec.extractLsb'_and
  simp only [Row.holds, beq_iff_eq]
  constructor
  · intro h
    simp only [opField, f1Field, f2Field, rsvField, ← e, h, and_self]
  · intro ⟨h0, h1, h2, h3⟩
    simp only [opField, f1Field, f2Field, rsvField, ← e] at h0 h1 h2 h3
    exact word_eq_of_fields h0 h1 h2 h3

/-- The rows, tested on an encoded word field by field. -/
theorem Row.holds_enc (o : Op) (p m : Word) (op f1 f2 : Byte) :
    (Row.mk o p m).holds (enc op f1 f2)
      = decide (op &&& opField m = opField p ∧ f1 &&& f1Field m = f1Field p
          ∧ f2 &&& f2Field m = f2Field p ∧ 0x00#8 = rsvField p) := by
  have := Row.holds_iff (Row.mk o p m) (enc op f1 f2)
  simp only [opField_enc, f1Field_enc, f2Field_enc, rsvField_enc] at this
  rw [Bool.eq_iff_iff, this]
  simp

/-- The decoder on an encoded word. -/
theorem decode_enc (op f1 f2 : Byte) :
    decode (enc op f1 f2)
      = match opcodeTable.find? (fun r => r.holds (enc op f1 f2)) with
        | none => .error .noRow
        | some r => assemble r.op f1 f2 := by
  unfold decode
  rw [if_neg (by simp), f1Field_enc, f2Field_enc]
  all_goals (cases opcodeTable.find? (fun r => r.holds (enc op f1 f2)) <;> rfl)

/-- A word that decodes to a command has RSV = 0, belongs to a row of the table, and passes the row's
field-value check (30_encoding.md R86). -/
theorem decode_ok {w : Word} {i : Instr} (h : decode w = .ok i) :
    rsvField w = 0x00#8 ∧ ∃ r ∈ opcodeTable, r.holds w = true
      ∧ assemble r.op (f1Field w) (f2Field w) = .ok i := by
  unfold decode at h
  split at h
  · cases h
  · rename_i hr
    split at h
    · cases h
    · rename_i r hf
      exact ⟨by simpa using hr, r, List.mem_of_find?_eq_some hf, by simpa using List.find?_some hf, h⟩

end Sys2Proof
end

