-- ==== Sys2Proof/Laws/State.lean ====
section
/-! SUPPORT. One lemma per field per update of the state, each true by rfl: later proofs rewrite with these
and unfold no record update. -/

namespace Sys2Proof.Machine

/-! ## Completion. -/

@[simp] theorem complete_ctrl (s : State) : (complete s).ctrl = s.ctrl := rfl
@[simp] theorem complete_busy (s : State) : (complete s).busy = false := rfl
@[simp] theorem complete_done (s : State) : (complete s).done = true := rfl
@[simp] theorem complete_err (s : State) : (complete s).err = s.err := rfl
@[simp] theorem complete_reject (s : State) : (complete s).reject = s.reject := rfl
@[simp] theorem complete_keyv (s : State) : (complete s).keyv = s.keyv := rfl
@[simp] theorem complete_mode (s : State) : (complete s).mode = s.mode := rfl
@[simp] theorem complete_tail (s : State) : (complete s).tail = s.tail := rfl
@[simp] theorem complete_errcode (s : State) : (complete s).errcode = s.errcode := rfl
@[simp] theorem complete_msglen (s : State) : (complete s).msglen = s.msglen := rfl
@[simp] theorem complete_blkrem (s : State) : (complete s).blkrem = s.blkrem := rfl
@[simp] theorem complete_outlen (s : State) : (complete s).outlen = s.outlen := rfl
@[simp] theorem complete_key (s : State) : (complete s).key = s.key := rfl
@[simp] theorem complete_iv (s : State) : (complete s).iv = s.iv := rfl
@[simp] theorem complete_chain (s : State) : (complete s).chain = s.chain := rfl
@[simp] theorem complete_din (s : State) : (complete s).din = s.din := rfl
@[simp] theorem complete_dout (s : State) : (complete s).dout = s.dout := rfl
@[simp] theorem complete_rk (s : State) : (complete s).rk = s.rk := rfl
@[simp] theorem complete_pending (s : State) : (complete s).pending = none := rfl
@[simp] theorem complete_latLeft (s : State) : (complete s).latLeft = 0 := rfl
@[simp] theorem complete_inputs (s : State) : (complete s).inputs = s.inputs := rfl
@[simp] theorem complete_resp (s : State) : (complete s).resp = s.resp := rfl
@[simp] theorem complete_rngPort (s : State) : (complete s).rngPort = s.rngPort := rfl
@[simp] theorem complete_rngDraws (s : State) : (complete s).rngDraws = s.rngDraws := rfl

/-! ## Clearing an error. -/

@[simp] theorem clearError_ctrl (s : State) : (clearError s).ctrl = s.ctrl := rfl
@[simp] theorem clearError_busy (s : State) : (clearError s).busy = s.busy := rfl
@[simp] theorem clearError_done (s : State) : (clearError s).done = s.done := rfl
@[simp] theorem clearError_err (s : State) : (clearError s).err = false := rfl
@[simp] theorem clearError_reject (s : State) : (clearError s).reject = s.reject := rfl
@[simp] theorem clearError_keyv (s : State) : (clearError s).keyv = s.keyv := rfl
@[simp] theorem clearError_mode (s : State) : (clearError s).mode = s.mode := rfl
@[simp] theorem clearError_tail (s : State) : (clearError s).tail = s.tail := rfl
@[simp] theorem clearError_errcode (s : State) : (clearError s).errcode = none := rfl
@[simp] theorem clearError_msglen (s : State) : (clearError s).msglen = s.msglen := rfl
@[simp] theorem clearError_blkrem (s : State) : (clearError s).blkrem = s.blkrem := rfl
@[simp] theorem clearError_outlen (s : State) : (clearError s).outlen = s.outlen := rfl
@[simp] theorem clearError_key (s : State) : (clearError s).key = s.key := rfl
@[simp] theorem clearError_iv (s : State) : (clearError s).iv = s.iv := rfl
@[simp] theorem clearError_chain (s : State) : (clearError s).chain = s.chain := rfl
@[simp] theorem clearError_din (s : State) : (clearError s).din = s.din := rfl
@[simp] theorem clearError_dout (s : State) : (clearError s).dout = s.dout := rfl
@[simp] theorem clearError_rk (s : State) : (clearError s).rk = s.rk := rfl
@[simp] theorem clearError_pending (s : State) : (clearError s).pending = s.pending := rfl
@[simp] theorem clearError_latLeft (s : State) : (clearError s).latLeft = s.latLeft := rfl
@[simp] theorem clearError_inputs (s : State) : (clearError s).inputs = s.inputs := rfl
@[simp] theorem clearError_resp (s : State) : (clearError s).resp = s.resp := rfl
@[simp] theorem clearError_rngPort (s : State) : (clearError s).rngPort = s.rngPort := rfl
@[simp] theorem clearError_rngDraws (s : State) : (clearError s).rngDraws = s.rngDraws := rfl

/-! ## Taking an error. -/

@[simp] theorem raise_ctrl (e : ErrorCode) (s : State) : (raise e s).ctrl = s.ctrl := rfl
@[simp] theorem raise_busy (e : ErrorCode) (s : State) : (raise e s).busy = false := rfl
@[simp] theorem raise_done (e : ErrorCode) (s : State) : (raise e s).done = true := rfl
@[simp] theorem raise_err (e : ErrorCode) (s : State) : (raise e s).err = true := rfl
@[simp] theorem raise_reject (e : ErrorCode) (s : State) : (raise e s).reject = s.reject := rfl
@[simp] theorem raise_keyv (e : ErrorCode) (s : State) : (raise e s).keyv = s.keyv := rfl
@[simp] theorem raise_mode (e : ErrorCode) (s : State) : (raise e s).mode = .idle := rfl
@[simp] theorem raise_tail (e : ErrorCode) (s : State) : (raise e s).tail = 0#4 := rfl
@[simp] theorem raise_errcode (e : ErrorCode) (s : State) : (raise e s).errcode = some e := rfl
@[simp] theorem raise_msglen (e : ErrorCode) (s : State) : (raise e s).msglen = s.msglen := rfl
@[simp] theorem raise_blkrem (e : ErrorCode) (s : State) : (raise e s).blkrem = 0#32 := rfl
@[simp] theorem raise_outlen (e : ErrorCode) (s : State) : (raise e s).outlen = if e = .invalidPadding then 0#5 else s.outlen := rfl
@[simp] theorem raise_key (e : ErrorCode) (s : State) : (raise e s).key = s.key := rfl
@[simp] theorem raise_iv (e : ErrorCode) (s : State) : (raise e s).iv = s.iv := rfl
@[simp] theorem raise_chain (e : ErrorCode) (s : State) : (raise e s).chain = s.chain := rfl
@[simp] theorem raise_din (e : ErrorCode) (s : State) : (raise e s).din = s.din := rfl
@[simp] theorem raise_dout (e : ErrorCode) (s : State) : (raise e s).dout = if e = .invalidPadding then Block.zero else s.dout := rfl
@[simp] theorem raise_rk (e : ErrorCode) (s : State) : (raise e s).rk = s.rk := rfl
@[simp] theorem raise_pending (e : ErrorCode) (s : State) : (raise e s).pending = none := rfl
@[simp] theorem raise_latLeft (e : ErrorCode) (s : State) : (raise e s).latLeft = 0 := rfl
@[simp] theorem raise_inputs (e : ErrorCode) (s : State) : (raise e s).inputs = s.inputs := rfl
@[simp] theorem raise_resp (e : ErrorCode) (s : State) : (raise e s).resp = s.resp := rfl
@[simp] theorem raise_rngPort (e : ErrorCode) (s : State) : (raise e s).rngPort = s.rngPort := rfl
@[simp] theorem raise_rngDraws (e : ErrorCode) (s : State) : (raise e s).rngDraws = s.rngDraws := rfl

/-! ## A byte result. -/

@[simp] theorem putByte_ctrl (y : Byte) (s : State) : (putByte y s).ctrl = s.ctrl := rfl
@[simp] theorem putByte_busy (y : Byte) (s : State) : (putByte y s).busy = s.busy := rfl
@[simp] theorem putByte_done (y : Byte) (s : State) : (putByte y s).done = s.done := rfl
@[simp] theorem putByte_err (y : Byte) (s : State) : (putByte y s).err = s.err := rfl
@[simp] theorem putByte_reject (y : Byte) (s : State) : (putByte y s).reject = s.reject := rfl
@[simp] theorem putByte_keyv (y : Byte) (s : State) : (putByte y s).keyv = s.keyv := rfl
@[simp] theorem putByte_mode (y : Byte) (s : State) : (putByte y s).mode = s.mode := rfl
@[simp] theorem putByte_tail (y : Byte) (s : State) : (putByte y s).tail = s.tail := rfl
@[simp] theorem putByte_errcode (y : Byte) (s : State) : (putByte y s).errcode = s.errcode := rfl
@[simp] theorem putByte_msglen (y : Byte) (s : State) : (putByte y s).msglen = s.msglen := rfl
@[simp] theorem putByte_blkrem (y : Byte) (s : State) : (putByte y s).blkrem = s.blkrem := rfl
@[simp] theorem putByte_outlen (y : Byte) (s : State) : (putByte y s).outlen = 1#5 := rfl
@[simp] theorem putByte_key (y : Byte) (s : State) : (putByte y s).key = s.key := rfl
@[simp] theorem putByte_iv (y : Byte) (s : State) : (putByte y s).iv = s.iv := rfl
@[simp] theorem putByte_chain (y : Byte) (s : State) : (putByte y s).chain = s.chain := rfl
@[simp] theorem putByte_din (y : Byte) (s : State) : (putByte y s).din = s.din := rfl
@[simp] theorem putByte_dout (y : Byte) (s : State) : (putByte y s).dout = ⟨y.setWidth 32 <<< 24, 0#32, 0#32, 0#32⟩ := rfl
@[simp] theorem putByte_rk (y : Byte) (s : State) : (putByte y s).rk = s.rk := rfl
@[simp] theorem putByte_pending (y : Byte) (s : State) : (putByte y s).pending = s.pending := rfl
@[simp] theorem putByte_latLeft (y : Byte) (s : State) : (putByte y s).latLeft = s.latLeft := rfl
@[simp] theorem putByte_inputs (y : Byte) (s : State) : (putByte y s).inputs = s.inputs := rfl
@[simp] theorem putByte_resp (y : Byte) (s : State) : (putByte y s).resp = s.resp := rfl
@[simp] theorem putByte_rngPort (y : Byte) (s : State) : (putByte y s).rngPort = s.rngPort := rfl
@[simp] theorem putByte_rngDraws (y : Byte) (s : State) : (putByte y s).rngDraws = s.rngDraws := rfl

/-! ## A word result. -/

@[simp] theorem putWord_ctrl (w : Word) (s : State) : (putWord w s).ctrl = s.ctrl := rfl
@[simp] theorem putWord_busy (w : Word) (s : State) : (putWord w s).busy = s.busy := rfl
@[simp] theorem putWord_done (w : Word) (s : State) : (putWord w s).done = s.done := rfl
@[simp] theorem putWord_err (w : Word) (s : State) : (putWord w s).err = s.err := rfl
@[simp] theorem putWord_reject (w : Word) (s : State) : (putWord w s).reject = s.reject := rfl
@[simp] theorem putWord_keyv (w : Word) (s : State) : (putWord w s).keyv = s.keyv := rfl
@[simp] theorem putWord_mode (w : Word) (s : State) : (putWord w s).mode = s.mode := rfl
@[simp] theorem putWord_tail (w : Word) (s : State) : (putWord w s).tail = s.tail := rfl
@[simp] theorem putWord_errcode (w : Word) (s : State) : (putWord w s).errcode = s.errcode := rfl
@[simp] theorem putWord_msglen (w : Word) (s : State) : (putWord w s).msglen = s.msglen := rfl
@[simp] theorem putWord_blkrem (w : Word) (s : State) : (putWord w s).blkrem = s.blkrem := rfl
@[simp] theorem putWord_outlen (w : Word) (s : State) : (putWord w s).outlen = 4#5 := rfl
@[simp] theorem putWord_key (w : Word) (s : State) : (putWord w s).key = s.key := rfl
@[simp] theorem putWord_iv (w : Word) (s : State) : (putWord w s).iv = s.iv := rfl
@[simp] theorem putWord_chain (w : Word) (s : State) : (putWord w s).chain = s.chain := rfl
@[simp] theorem putWord_din (w : Word) (s : State) : (putWord w s).din = s.din := rfl
@[simp] theorem putWord_dout (w : Word) (s : State) : (putWord w s).dout = ⟨w, 0#32, 0#32, 0#32⟩ := rfl
@[simp] theorem putWord_rk (w : Word) (s : State) : (putWord w s).rk = s.rk := rfl
@[simp] theorem putWord_pending (w : Word) (s : State) : (putWord w s).pending = s.pending := rfl
@[simp] theorem putWord_latLeft (w : Word) (s : State) : (putWord w s).latLeft = s.latLeft := rfl
@[simp] theorem putWord_inputs (w : Word) (s : State) : (putWord w s).inputs = s.inputs := rfl
@[simp] theorem putWord_resp (w : Word) (s : State) : (putWord w s).resp = s.resp := rfl
@[simp] theorem putWord_rngPort (w : Word) (s : State) : (putWord w s).rngPort = s.rngPort := rfl
@[simp] theorem putWord_rngDraws (w : Word) (s : State) : (putWord w s).rngDraws = s.rngDraws := rfl

/-! ## A block result. -/

@[simp] theorem putBlock_ctrl (b : Block) (n : BitVec 5) (s : State) : (putBlock b n s).ctrl = s.ctrl := rfl
@[simp] theorem putBlock_busy (b : Block) (n : BitVec 5) (s : State) : (putBlock b n s).busy = s.busy := rfl
@[simp] theorem putBlock_done (b : Block) (n : BitVec 5) (s : State) : (putBlock b n s).done = s.done := rfl
@[simp] theorem putBlock_err (b : Block) (n : BitVec 5) (s : State) : (putBlock b n s).err = s.err := rfl
@[simp] theorem putBlock_reject (b : Block) (n : BitVec 5) (s : State) : (putBlock b n s).reject = s.reject := rfl
@[simp] theorem putBlock_keyv (b : Block) (n : BitVec 5) (s : State) : (putBlock b n s).keyv = s.keyv := rfl
@[simp] theorem putBlock_mode (b : Block) (n : BitVec 5) (s : State) : (putBlock b n s).mode = s.mode := rfl
@[simp] theorem putBlock_tail (b : Block) (n : BitVec 5) (s : State) : (putBlock b n s).tail = s.tail := rfl
@[simp] theorem putBlock_errcode (b : Block) (n : BitVec 5) (s : State) : (putBlock b n s).errcode = s.errcode := rfl
@[simp] theorem putBlock_msglen (b : Block) (n : BitVec 5) (s : State) : (putBlock b n s).msglen = s.msglen := rfl
@[simp] theorem putBlock_blkrem (b : Block) (n : BitVec 5) (s : State) : (putBlock b n s).blkrem = s.blkrem := rfl
@[simp] theorem putBlock_outlen (b : Block) (n : BitVec 5) (s : State) : (putBlock b n s).outlen = n := rfl
@[simp] theorem putBlock_key (b : Block) (n : BitVec 5) (s : State) : (putBlock b n s).key = s.key := rfl
@[simp] theorem putBlock_iv (b : Block) (n : BitVec 5) (s : State) : (putBlock b n s).iv = s.iv := rfl
@[simp] theorem putBlock_chain (b : Block) (n : BitVec 5) (s : State) : (putBlock b n s).chain = s.chain := rfl
@[simp] theorem putBlock_din (b : Block) (n : BitVec 5) (s : State) : (putBlock b n s).din = s.din := rfl
@[simp] theorem putBlock_dout (b : Block) (n : BitVec 5) (s : State) : (putBlock b n s).dout = b := rfl
@[simp] theorem putBlock_rk (b : Block) (n : BitVec 5) (s : State) : (putBlock b n s).rk = s.rk := rfl
@[simp] theorem putBlock_pending (b : Block) (n : BitVec 5) (s : State) : (putBlock b n s).pending = s.pending := rfl
@[simp] theorem putBlock_latLeft (b : Block) (n : BitVec 5) (s : State) : (putBlock b n s).latLeft = s.latLeft := rfl
@[simp] theorem putBlock_inputs (b : Block) (n : BitVec 5) (s : State) : (putBlock b n s).inputs = s.inputs := rfl
@[simp] theorem putBlock_resp (b : Block) (n : BitVec 5) (s : State) : (putBlock b n s).resp = s.resp := rfl
@[simp] theorem putBlock_rngPort (b : Block) (n : BitVec 5) (s : State) : (putBlock b n s).rngPort = s.rngPort := rfl
@[simp] theorem putBlock_rngDraws (b : Block) (n : BitVec 5) (s : State) : (putBlock b n s).rngDraws = s.rngDraws := rfl

/-! ## The issue of a command. -/

@[simp] theorem issue_ctrl (v : Word) (s : State) : (issue v s).ctrl = s.ctrl := rfl
@[simp] theorem issue_busy (v : Word) (s : State) : (issue v s).busy = true := rfl
@[simp] theorem issue_done (v : Word) (s : State) : (issue v s).done = false := rfl
@[simp] theorem issue_err (v : Word) (s : State) : (issue v s).err = s.err := rfl
@[simp] theorem issue_reject (v : Word) (s : State) : (issue v s).reject = s.reject := rfl
@[simp] theorem issue_keyv (v : Word) (s : State) : (issue v s).keyv = s.keyv := rfl
@[simp] theorem issue_mode (v : Word) (s : State) : (issue v s).mode = s.mode := rfl
@[simp] theorem issue_tail (v : Word) (s : State) : (issue v s).tail = s.tail := rfl
@[simp] theorem issue_errcode (v : Word) (s : State) : (issue v s).errcode = s.errcode := rfl
@[simp] theorem issue_msglen (v : Word) (s : State) : (issue v s).msglen = s.msglen := rfl
@[simp] theorem issue_blkrem (v : Word) (s : State) : (issue v s).blkrem = s.blkrem := rfl
@[simp] theorem issue_outlen (v : Word) (s : State) : (issue v s).outlen = s.outlen := rfl
@[simp] theorem issue_key (v : Word) (s : State) : (issue v s).key = s.key := rfl
@[simp] theorem issue_iv (v : Word) (s : State) : (issue v s).iv = s.iv := rfl
@[simp] theorem issue_chain (v : Word) (s : State) : (issue v s).chain = s.chain := rfl
@[simp] theorem issue_din (v : Word) (s : State) : (issue v s).din = s.din := rfl
@[simp] theorem issue_dout (v : Word) (s : State) : (issue v s).dout = s.dout := rfl
@[simp] theorem issue_rk (v : Word) (s : State) : (issue v s).rk = s.rk := rfl
@[simp] theorem issue_pending (v : Word) (s : State) : (issue v s).pending = some v := rfl
@[simp] theorem issue_latLeft (v : Word) (s : State) : (issue v s).latLeft = commandLatency v s.rngDraws := rfl
@[simp] theorem issue_inputs (v : Word) (s : State) : (issue v s).inputs = s.inputs := rfl
@[simp] theorem issue_resp (v : Word) (s : State) : (issue v s).resp = s.resp := rfl
@[simp] theorem issue_rngPort (v : Word) (s : State) : (issue v s).rngPort = s.rngPort := rfl
@[simp] theorem issue_rngDraws (v : Word) (s : State) : (issue v s).rngDraws = s.rngDraws := rfl

/-! ## A rejected write. -/

@[simp] theorem rejectWrite_ctrl (s : State) : (rejectWrite s).ctrl = s.ctrl := rfl
@[simp] theorem rejectWrite_busy (s : State) : (rejectWrite s).busy = s.busy := rfl
@[simp] theorem rejectWrite_done (s : State) : (rejectWrite s).done = s.done := rfl
@[simp] theorem rejectWrite_err (s : State) : (rejectWrite s).err = s.err := rfl
@[simp] theorem rejectWrite_reject (s : State) : (rejectWrite s).reject = true := rfl
@[simp] theorem rejectWrite_keyv (s : State) : (rejectWrite s).keyv = s.keyv := rfl
@[simp] theorem rejectWrite_mode (s : State) : (rejectWrite s).mode = s.mode := rfl
@[simp] theorem rejectWrite_tail (s : State) : (rejectWrite s).tail = s.tail := rfl
@[simp] theorem rejectWrite_errcode (s : State) : (rejectWrite s).errcode = s.errcode := rfl
@[simp] theorem rejectWrite_msglen (s : State) : (rejectWrite s).msglen = s.msglen := rfl
@[simp] theorem rejectWrite_blkrem (s : State) : (rejectWrite s).blkrem = s.blkrem := rfl
@[simp] theorem rejectWrite_outlen (s : State) : (rejectWrite s).outlen = s.outlen := rfl
@[simp] theorem rejectWrite_key (s : State) : (rejectWrite s).key = s.key := rfl
@[simp] theorem rejectWrite_iv (s : State) : (rejectWrite s).iv = s.iv := rfl
@[simp] theorem rejectWrite_chain (s : State) : (rejectWrite s).chain = s.chain := rfl
@[simp] theorem rejectWrite_din (s : State) : (rejectWrite s).din = s.din := rfl
@[simp] theorem rejectWrite_dout (s : State) : (rejectWrite s).dout = s.dout := rfl
@[simp] theorem rejectWrite_rk (s : State) : (rejectWrite s).rk = s.rk := rfl
@[simp] theorem rejectWrite_pending (s : State) : (rejectWrite s).pending = s.pending := rfl
@[simp] theorem rejectWrite_latLeft (s : State) : (rejectWrite s).latLeft = s.latLeft := rfl
@[simp] theorem rejectWrite_inputs (s : State) : (rejectWrite s).inputs = s.inputs := rfl
@[simp] theorem rejectWrite_resp (s : State) : (rejectWrite s).resp = s.resp := rfl
@[simp] theorem rejectWrite_rngPort (s : State) : (rejectWrite s).rngPort = s.rngPort := rfl
@[simp] theorem rejectWrite_rngDraws (s : State) : (rejectWrite s).rngDraws = s.rngDraws := rfl

/-! ## Opening an encryption stream. -/

@[simp] theorem openEncryption_ctrl (s : State) : (openEncryption s).ctrl = s.ctrl := rfl
@[simp] theorem openEncryption_busy (s : State) : (openEncryption s).busy = s.busy := rfl
@[simp] theorem openEncryption_done (s : State) : (openEncryption s).done = s.done := rfl
@[simp] theorem openEncryption_err (s : State) : (openEncryption s).err = s.err := rfl
@[simp] theorem openEncryption_reject (s : State) : (openEncryption s).reject = s.reject := rfl
@[simp] theorem openEncryption_keyv (s : State) : (openEncryption s).keyv = s.keyv := rfl
@[simp] theorem openEncryption_mode (s : State) : (openEncryption s).mode = .enc := rfl
@[simp] theorem openEncryption_tail (s : State) : (openEncryption s).tail = (s.msglen % 16#32).setWidth 4 := rfl
@[simp] theorem openEncryption_errcode (s : State) : (openEncryption s).errcode = s.errcode := rfl
@[simp] theorem openEncryption_msglen (s : State) : (openEncryption s).msglen = s.msglen := rfl
@[simp] theorem openEncryption_blkrem (s : State) : (openEncryption s).blkrem = s.msglen / 16#32 + 1#32 := rfl
@[simp] theorem openEncryption_outlen (s : State) : (openEncryption s).outlen = s.outlen := rfl
@[simp] theorem openEncryption_key (s : State) : (openEncryption s).key = s.key := rfl
@[simp] theorem openEncryption_iv (s : State) : (openEncryption s).iv = s.iv := rfl
@[simp] theorem openEncryption_chain (s : State) : (openEncryption s).chain = s.iv := rfl
@[simp] theorem openEncryption_din (s : State) : (openEncryption s).din = s.din := rfl
@[simp] theorem openEncryption_dout (s : State) : (openEncryption s).dout = s.dout := rfl
@[simp] theorem openEncryption_rk (s : State) : (openEncryption s).rk = s.rk := rfl
@[simp] theorem openEncryption_pending (s : State) : (openEncryption s).pending = s.pending := rfl
@[simp] theorem openEncryption_latLeft (s : State) : (openEncryption s).latLeft = s.latLeft := rfl
@[simp] theorem openEncryption_inputs (s : State) : (openEncryption s).inputs = s.inputs := rfl
@[simp] theorem openEncryption_resp (s : State) : (openEncryption s).resp = s.resp := rfl
@[simp] theorem openEncryption_rngPort (s : State) : (openEncryption s).rngPort = s.rngPort := rfl
@[simp] theorem openEncryption_rngDraws (s : State) : (openEncryption s).rngDraws = s.rngDraws := rfl

/-! ## Taking a cycle's input. -/

@[simp] theorem popInput_ctrl (s : State) : (popInput s).ctrl = s.ctrl := rfl
@[simp] theorem popInput_busy (s : State) : (popInput s).busy = s.busy := rfl
@[simp] theorem popInput_done (s : State) : (popInput s).done = s.done := rfl
@[simp] theorem popInput_err (s : State) : (popInput s).err = s.err := rfl
@[simp] theorem popInput_reject (s : State) : (popInput s).reject = s.reject := rfl
@[simp] theorem popInput_keyv (s : State) : (popInput s).keyv = s.keyv := rfl
@[simp] theorem popInput_mode (s : State) : (popInput s).mode = s.mode := rfl
@[simp] theorem popInput_tail (s : State) : (popInput s).tail = s.tail := rfl
@[simp] theorem popInput_errcode (s : State) : (popInput s).errcode = s.errcode := rfl
@[simp] theorem popInput_msglen (s : State) : (popInput s).msglen = s.msglen := rfl
@[simp] theorem popInput_blkrem (s : State) : (popInput s).blkrem = s.blkrem := rfl
@[simp] theorem popInput_outlen (s : State) : (popInput s).outlen = s.outlen := rfl
@[simp] theorem popInput_key (s : State) : (popInput s).key = s.key := rfl
@[simp] theorem popInput_iv (s : State) : (popInput s).iv = s.iv := rfl
@[simp] theorem popInput_chain (s : State) : (popInput s).chain = s.chain := rfl
@[simp] theorem popInput_din (s : State) : (popInput s).din = s.din := rfl
@[simp] theorem popInput_dout (s : State) : (popInput s).dout = s.dout := rfl
@[simp] theorem popInput_rk (s : State) : (popInput s).rk = s.rk := rfl
@[simp] theorem popInput_pending (s : State) : (popInput s).pending = s.pending := rfl
@[simp] theorem popInput_latLeft (s : State) : (popInput s).latLeft = s.latLeft := rfl
@[simp] theorem popInput_inputs (s : State) : (popInput s).inputs = s.inputs.tail := rfl
@[simp] theorem popInput_resp (s : State) : (popInput s).resp = s.resp := rfl
@[simp] theorem popInput_rngPort (s : State) : (popInput s).rngPort = s.rngPort := rfl
@[simp] theorem popInput_rngDraws (s : State) : (popInput s).rngDraws = s.rngDraws := rfl

/-! ## Placing a due command. -/

@[simp] theorem loadPending_ctrl (w : Word) (s : State) : (loadPending w s).ctrl = s.ctrl := rfl
@[simp] theorem loadPending_busy (w : Word) (s : State) : (loadPending w s).busy = true := rfl
@[simp] theorem loadPending_done (w : Word) (s : State) : (loadPending w s).done = false := rfl
@[simp] theorem loadPending_err (w : Word) (s : State) : (loadPending w s).err = false := rfl
@[simp] theorem loadPending_reject (w : Word) (s : State) : (loadPending w s).reject = s.reject := rfl
@[simp] theorem loadPending_keyv (w : Word) (s : State) : (loadPending w s).keyv = s.keyv := rfl
@[simp] theorem loadPending_mode (w : Word) (s : State) : (loadPending w s).mode = s.mode := rfl
@[simp] theorem loadPending_tail (w : Word) (s : State) : (loadPending w s).tail = s.tail := rfl
@[simp] theorem loadPending_errcode (w : Word) (s : State) : (loadPending w s).errcode = none := rfl
@[simp] theorem loadPending_msglen (w : Word) (s : State) : (loadPending w s).msglen = s.msglen := rfl
@[simp] theorem loadPending_blkrem (w : Word) (s : State) : (loadPending w s).blkrem = s.blkrem := rfl
@[simp] theorem loadPending_outlen (w : Word) (s : State) : (loadPending w s).outlen = s.outlen := rfl
@[simp] theorem loadPending_key (w : Word) (s : State) : (loadPending w s).key = s.key := rfl
@[simp] theorem loadPending_iv (w : Word) (s : State) : (loadPending w s).iv = s.iv := rfl
@[simp] theorem loadPending_chain (w : Word) (s : State) : (loadPending w s).chain = s.chain := rfl
@[simp] theorem loadPending_din (w : Word) (s : State) : (loadPending w s).din = s.din := rfl
@[simp] theorem loadPending_dout (w : Word) (s : State) : (loadPending w s).dout = s.dout := rfl
@[simp] theorem loadPending_rk (w : Word) (s : State) : (loadPending w s).rk = s.rk := rfl
@[simp] theorem loadPending_pending (w : Word) (s : State) : (loadPending w s).pending = some w := rfl
@[simp] theorem loadPending_latLeft (w : Word) (s : State) : (loadPending w s).latLeft = 1 := rfl
@[simp] theorem loadPending_inputs (w : Word) (s : State) : (loadPending w s).inputs = Cycle.quiet :: s.inputs := rfl
@[simp] theorem loadPending_resp (w : Word) (s : State) : (loadPending w s).resp = s.resp := rfl
@[simp] theorem loadPending_rngPort (w : Word) (s : State) : (loadPending w s).rngPort = s.rngPort := rfl
@[simp] theorem loadPending_rngDraws (w : Word) (s : State) : (loadPending w s).rngDraws = s.rngDraws := rfl

/-! ## The reset event. -/

@[simp] theorem resetEvent_ctrl (s : State) : (resetEvent s).ctrl = State.reset.ctrl := rfl
@[simp] theorem resetEvent_busy (s : State) : (resetEvent s).busy = State.reset.busy := rfl
@[simp] theorem resetEvent_done (s : State) : (resetEvent s).done = State.reset.done := rfl
@[simp] theorem resetEvent_err (s : State) : (resetEvent s).err = State.reset.err := rfl
@[simp] theorem resetEvent_reject (s : State) : (resetEvent s).reject = State.reset.reject := rfl
@[simp] theorem resetEvent_keyv (s : State) : (resetEvent s).keyv = State.reset.keyv := rfl
@[simp] theorem resetEvent_mode (s : State) : (resetEvent s).mode = State.reset.mode := rfl
@[simp] theorem resetEvent_tail (s : State) : (resetEvent s).tail = State.reset.tail := rfl
@[simp] theorem resetEvent_errcode (s : State) : (resetEvent s).errcode = State.reset.errcode := rfl
@[simp] theorem resetEvent_msglen (s : State) : (resetEvent s).msglen = State.reset.msglen := rfl
@[simp] theorem resetEvent_blkrem (s : State) : (resetEvent s).blkrem = State.reset.blkrem := rfl
@[simp] theorem resetEvent_outlen (s : State) : (resetEvent s).outlen = State.reset.outlen := rfl
@[simp] theorem resetEvent_key (s : State) : (resetEvent s).key = State.reset.key := rfl
@[simp] theorem resetEvent_iv (s : State) : (resetEvent s).iv = State.reset.iv := rfl
@[simp] theorem resetEvent_chain (s : State) : (resetEvent s).chain = State.reset.chain := rfl
@[simp] theorem resetEvent_din (s : State) : (resetEvent s).din = State.reset.din := rfl
@[simp] theorem resetEvent_dout (s : State) : (resetEvent s).dout = State.reset.dout := rfl
@[simp] theorem resetEvent_rk (s : State) : (resetEvent s).rk = State.reset.rk := rfl
@[simp] theorem resetEvent_pending (s : State) : (resetEvent s).pending = State.reset.pending := rfl
@[simp] theorem resetEvent_latLeft (s : State) : (resetEvent s).latLeft = State.reset.latLeft := rfl
@[simp] theorem resetEvent_inputs (s : State) : (resetEvent s).inputs = s.inputs := rfl
@[simp] theorem resetEvent_resp (s : State) : (resetEvent s).resp = State.reset.resp := rfl
@[simp] theorem resetEvent_rngPort (s : State) : (resetEvent s).rngPort = s.rngPort := rfl
@[simp] theorem resetEvent_rngDraws (s : State) : (resetEvent s).rngDraws = s.rngDraws := rfl

end Sys2Proof.Machine
end

