-- ==== Sys2Proof/Laws/Exec.lean ====
section
/-! SUPPORT. What the shared operations of the machine do, said once: a command ends by `finish` or by
`fail`, what each of them leaves, and what a host transaction leaves alone. -/

namespace Sys2Proof.Machine

/-! ## Completion -/

@[simp] theorem finish_eq (s : State) : finish s = .next (complete s) := rfl

@[simp] theorem fail_eq (e : ErrorCode) (s : State) : fail e s = .next (raise e s) := rfl

theorem completed_complete (s : State) : Completed (complete s) := ⟨rfl, rfl, rfl, rfl⟩

theorem completed_raise (e : ErrorCode) (s : State) : Completed (raise e s) := ⟨rfl, rfl, rfl, rfl⟩

/-- What `fail` commits (60_exceptions.md R270). -/
theorem fail_takesError (e : ErrorCode) (s : State) : TakesError (fail e s) s e := by
  refine ⟨raise e s, rfl, rfl, rfl, rfl, rfl, rfl, ?_, completed_raise e s, ⟨rfl, rfl, rfl, rfl, rfl⟩, rfl,
    ⟨rfl, rfl⟩, rfl, ⟨rfl, rfl, rfl, rfl⟩⟩
  split <;> simp_all [SameOutput]

/-- What a result written to DOUT and OUTLEN alone leaves. -/
theorem putBlock_givesOutput (b : Block) (n : BitVec 5) (s : State) :
    GivesOutput (finish (putBlock b n s)) s b n.toNat :=
  ⟨_, rfl, rfl, rfl, completed_complete _, ⟨rfl, rfl, rfl, rfl, rfl⟩, rfl, ⟨rfl, rfl⟩, ⟨rfl, rfl, rfl⟩, rfl,
    ⟨rfl, rfl⟩, ⟨rfl, rfl, rfl, rfl⟩⟩

theorem putWord_givesOutput (w : Word) (s : State) :
    GivesOutput (finish (putWord w s)) s ⟨w, 0#32, 0#32, 0#32⟩ 4 :=
  putBlock_givesOutput _ 4#5 s

theorem putByte_givesOutput (y : Byte) (s : State) :
    GivesOutput (finish (putByte y s)) s ⟨y.setWidth 32 <<< 24, 0#32, 0#32, 0#32⟩ 1 :=
  putBlock_givesOutput _ 1#5 s

/-- The RNG request: its answer and what it leaves (60_exceptions.md R285). -/
theorem rngDraw_eq (s : State) : rngDraw s = (nextAnswer s, afterDraw s) := by
  cases s with
  | mk => rename_i port draws; cases port <;> rfl

/-- The one inversion lemma of the meanings: a command ends without an error, having left the host's
registers and the latched error alone, or it ends with an error on the state as it was, the RNG provider
having answered when CBCE_INIT with GEN = 1 asked it. -/
theorem exec_cases (i : Instr) (s : State) :
    (∃ u, exec i s = finish u ∧ SameHostRegs s u ∧ SameError s u ∧ (i ≠ .cbceInit true → SameIv s u)
      ∧ u.inputs = s.inputs ∧ u.resp = s.resp)
    ∨ ∃ e u, exec i s = fail e u ∧ (u = s ∨ (i = .cbceInit true ∧ u = afterDraw s)) := by
  have ok : ∀ u, SameHostRegs s u → SameError s u → SameIv s u → u.inputs = s.inputs → u.resp = s.resp →
      (SameHostRegs s u ∧ SameError s u ∧ (i ≠ .cbceInit true → SameIv s u)
        ∧ u.inputs = s.inputs ∧ u.resp = s.resp) :=
    fun u h1 h2 h3 h4 h5 => ⟨h1, h2, fun _ => h3, h4, h5⟩
  cases i <;>
    simp only [exec, execNop, execAbort, execGmul, execGinv, execSbox, execInvsbox, execKeyexp, execRotword,
      execSubword, execRcon, execEncb, execDecb, execSubbytes, execInvsubbytes, execShiftrows,
      execInvshiftrows, execMixcolumns, execInvmixcolumns, execAddrk, execPad, execUnpad, execCbceInit,
      execCbce, execCbcdInit, execCbcd, rngDraw_eq] <;>
    (repeat' split) <;>
    first
      | exact .inr ⟨_, _, rfl, .inl rfl⟩
      | exact .inr ⟨_, _, rfl, .inr ⟨by simp_all, rfl⟩⟩
      | exact .inl ⟨_, rfl, ok _ ⟨rfl, rfl, rfl, rfl, rfl⟩ ⟨rfl, rfl⟩ rfl rfl rfl⟩
      | exact .inl ⟨_, rfl, ⟨rfl, rfl, rfl, rfl, rfl⟩, ⟨rfl, rfl⟩, fun h => absurd (by simp_all) h, rfl, rfl⟩

/-! ## Host transactions -/

/-- While BUSY = 1 a host write changes only CTRL, the flags DONE, ERR and REJECT, and ERRCODE
(20_memory.md R66). -/
theorem hostWrite_busy {s : State} (h : s.busy = true) (off : BitVec 8) (v : Word) :
    ∃ c d e r x, hostWrite off v s = { s with ctrl := c, done := d, err := e, reject := r, errcode := x } := by
  unfold hostWrite
  split
  · rename_i r _
    unfold writeReg writeStatus clearError rejectWrite
    split
    · simp only []
      split <;> exact ⟨_, _, _, _, _, rfl⟩
    · split
      · exact ⟨_, _, _, _, _, rfl⟩
      · split
        · exact ⟨_, _, _, _, _, rfl⟩
        · simp only [h]
          exact ⟨_, _, _, _, _, rfl⟩
  · exact ⟨_, _, _, _, _, rfl⟩

/-- While BUSY = 1 a cycle's host transaction changes only CTRL, the flags DONE, ERR and REJECT, ERRCODE
and the bus's response. -/
theorem hostPhase_busy {s : State} (h : s.busy = true) (a : Option Access) :
    ∃ c d e r x y, hostPhase a s
      = { s with ctrl := c, done := d, err := e, reject := r, errcode := x, resp := y } := by
  unfold hostPhase
  split
  · exact ⟨_, _, _, _, _, _, rfl⟩
  · split
    · split
      · exact ⟨_, _, _, _, _, _, rfl⟩
      · rename_i a _ _ v _
        obtain ⟨c, d, e, r, x, hw⟩ := hostWrite_busy h a.off v
        rw [hw]
        exact ⟨_, _, _, _, _, _, rfl⟩
    · exact ⟨_, _, _, _, _, _, rfl⟩

/-- The register map finds every register at its own offset (10_state.md R20). -/
@[simp] theorem regAt_offset (r : Reg) : regAt r.offset = some r := by
  cases r <;> first | decide | (rename_i k; revert k; decide)

/-- A register found at an offset stands at that offset. -/
theorem offset_of_regAt {off : BitVec 8} {r : Reg} (h : regAt off = some r) : r.offset = off := by
  simpa using List.find?_some h

@[simp] theorem hostRead_offset (s : State) (r : Reg) : hostRead s r.offset = readReg s r := by
  simp [hostRead]

@[simp] theorem hostWrite_offset (r : Reg) (v : Word) (s : State) :
    hostWrite r.offset v s = writeReg r v s := by
  simp [hostWrite]

/-- Every register stands at a multiple of 4 (20_memory.md R60). -/
theorem offset_mod_four (r : Reg) : r.offset.toNat % 4 = 0 := by
  cases r <;> first | decide | (rename_i k; revert k; decide)

/-- A 32-bit write of a register is accepted and does what `writeReg` says (20_memory.md R66). -/
theorem hostPhase_writeOf (r : Reg) (v : Word) (s : State) :
    hostPhase (some (writeOf r v)) s = { writeReg r v s with resp := some .ack } := by
  simp [hostPhase, Access.accepted, writeOf, offset_mod_four]

/-- A 32-bit read of a register is accepted and changes nothing but the response (20_memory.md R65). -/
theorem hostPhase_readOf (r : Reg) (s : State) :
    hostPhase (some (readOf r)) s = { s with resp := some (.data (readReg s r)) } := by
  simp [hostPhase, Access.accepted, readOf, offset_mod_four]

/-- What a host write can do while no command runs: clear flags, set CTRL, issue a command, be rejected, or
replace a register of the host (20_memory.md R66). -/
theorem hostWrite_idle {s : State} (h : s.busy = false) (off : BitVec 8) (v : Word) :
    hostWrite off v s = s ∨ hostWrite off v s = writeStatus v s
      ∨ hostWrite off v s = { s with ctrl := ctrlOf v }
      ∨ (s.err = true ∧ hostWrite off v s = rejectWrite s)
      ∨ (s.err = false ∧ hostWrite off v s = issue v s)
      ∨ ∃ r, hostWrite off v s = replaceReg r v s := by
  unfold hostWrite
  split
  · rename_i r _
    unfold writeReg
    simp only [h]
    split_ifs <;> first
      | exact .inr (.inr (.inr (.inr (.inr ⟨r, rfl⟩))))
      | simp_all
  · exact .inl rfl

/-! ## One cycle -/

/-- The inversion lemma of the step: what a clock cycle that answers a next state was. -/
theorem step_cases {s t : State} (h : step s = .next t) :
    ((cycleInput s).reset = true ∧ t = resetEvent (popInput s))
    ∨ ((cycleInput s).reset = false ∧ s.busy = false ∧ t = hostPhase (cycleInput s).access (popInput s))
    ∨ ((cycleInput s).reset = false ∧ s.busy = true ∧ 1 < s.latLeft
        ∧ t = { hostPhase (cycleInput s).access (popInput s) with latLeft := s.latLeft - 1 })
    ∨ ((cycleInput s).reset = false ∧ s.busy = true ∧ s.latLeft ≤ 1
        ∧ runPending (hostPhase (cycleInput s).access (popInput s)) = .next t) := by
  unfold step clockCycle sequencerPhase at h
  split_ifs at h with h1 h2 h3 h4
  · injection h with h
    exact .inl ⟨h2, h.symm⟩
  · obtain ⟨c, d, e, r, x, y, hp⟩ := hostPhase_busy (s := popInput s) h3 (cycleInput s).access
    have hl : (hostPhase (cycleInput s).access (popInput s)).latLeft = s.latLeft := by rw [hp]; rfl
    exact .inr (.inr (.inr ⟨by simpa using h2, h3, by omega, h⟩))
  · obtain ⟨c, d, e, r, x, y, hp⟩ := hostPhase_busy (s := popInput s) h3 (cycleInput s).access
    have hl : (hostPhase (cycleInput s).access (popInput s)).latLeft = s.latLeft := by rw [hp]; rfl
    injection h with h
    rw [hl] at h
    exact .inr (.inr (.inl ⟨by simpa using h2, h3, by omega, h.symm⟩))
  · injection h with h
    exact .inr (.inl ⟨by simpa using h2, by simpa using h3, h.symm⟩)

/-- The completion of a pending word: its command, or IllegalCommand (30_encoding.md R86). -/
theorem runPending_cases {s : State} {w : Word} (h : s.pending = some w) :
    (∃ i, decode w = .ok i ∧ runPending s = exec i s)
      ∨ ∃ why, decode w = .error why ∧ runPending s = fail .illegalCommand s := by
  simp only [runPending, h]
  cases hd : decode w with
  | ok i => exact .inl ⟨i, rfl, rfl⟩
  | error why => exact .inr ⟨why, rfl, rfl⟩

end Sys2Proof.Machine
end

