-- ==== Sys2Proof/Laws/PerInstr.lean ====
section
/-! SUPPORT. What is said of every command as syntax, one lemma per constructor: where the encoder puts a
command's opcode and immediates (30_encoding.md R80, R85). -/

namespace Sys2Proof.Laws.EncodedFields

/-- The word of a command has the command's opcode in OP, its immediates in F1 and F2, and RSV = 0
(30_encoding.md R80). -/
def Statement (i : Instr) : Prop :=
  opField (encode i) = i.op.code ∧ f1Field (encode i) = i.f1 ∧ f2Field (encode i) = i.f2
    ∧ rsvField (encode i) = 0x00#8

/-- The fields of any encoded word, from the lemmas about `enc`. -/
theorem statement_of_enc (i : Instr) : Statement i :=
  ⟨opField_enc _ _ _, f1Field_enc _ _ _, f2Field_enc _ _ _, rsvField_enc _ _ _⟩

theorem nop : Statement .nop := statement_of_enc _
theorem abort : Statement .abort := statement_of_enc _
theorem gmul (a b : Byte) : Statement (.gmul a b) := statement_of_enc _
theorem ginv (a : Byte) : Statement (.ginv a) := statement_of_enc _
theorem sbox (a : Byte) : Statement (.sbox a) := statement_of_enc _
theorem invsbox (a : Byte) : Statement (.invsbox a) := statement_of_enc _
theorem keyexp (a : Byte) : Statement (.keyexp a) := statement_of_enc _
theorem rotword : Statement .rotword := statement_of_enc _
theorem subword : Statement .subword := statement_of_enc _
theorem rcon (a : Byte) : Statement (.rcon a) := statement_of_enc _
theorem encb (a : Byte) : Statement (.encb a) := statement_of_enc _
theorem decb (a : Byte) : Statement (.decb a) := statement_of_enc _
theorem subbytes : Statement .subbytes := statement_of_enc _
theorem invsubbytes : Statement .invsubbytes := statement_of_enc _
theorem shiftrows : Statement .shiftrows := statement_of_enc _
theorem invshiftrows : Statement .invshiftrows := statement_of_enc _
theorem mixcolumns : Statement .mixcolumns := statement_of_enc _
theorem invmixcolumns : Statement .invmixcolumns := statement_of_enc _
theorem addrk : Statement .addrk := statement_of_enc _
theorem pad (a : Byte) : Statement (.pad a) := statement_of_enc _
theorem unpad : Statement .unpad := statement_of_enc _
theorem cbceInit (a : Bool) : Statement (.cbceInit a) := statement_of_enc _
theorem cbce : Statement .cbce := statement_of_enc _
theorem cbcdInit : Statement .cbcdInit := statement_of_enc _
theorem cbcd : Statement .cbcd := statement_of_enc _

end Sys2Proof.Laws.EncodedFields
end

