-- ==== Sys2Proof/Tests/Slice0.lean ====
section
/-! SUPPORT. Tests on fixed values, each expected value from a worked example or a table of the spec
(95_test_vectors.md unless another file is named), and a witness for the hypotheses of every statement. -/

namespace Sys2Proof.Tests

set_option Elab.async false

open Sys2Proof Sys2Proof.Machine

/-! ## Helpers -/

/-- 00112233445566778899aabbccddeeff. -/
def ramp : Block := ⟨0x00112233#32, 0x44556677#32, 0x8899AABB#32, 0xCCDDEEFF#32⟩

/-- 000102030405060708090a0b0c0d0e0f. -/
def count : Block := ⟨0x00010203#32, 0x04050607#32, 0x08090A0B#32, 0x0C0D0E0F#32⟩

/-- K_FIPS. -/
def kFips : Key :=
  ⟨0x00010203#32, 0x04050607#32, 0x08090A0B#32, 0x0C0D0E0F#32,
    0x10111213#32, 0x14151617#32, 0x18191A1B#32, 0x1C1D1E1F#32⟩

/-- K_SP. -/
def kSp : Key :=
  ⟨0x603DEB10#32, 0x15CA71BE#32, 0x2B73AEF0#32, 0x857D7781#32,
    0x1F352C07#32, 0x3B6108D7#32, 0x2D9810A3#32, 0x0914DFF4#32⟩

/-- The start state of the vectors with a key expanded; the round keys are zero words where they play no
part. -/
def ready : State := { State.reset with keyv := true, din := ramp, iv := count }

/-- The same with a 17-byte message's encryption stream open (vector CBC-1). -/
def inEnc : State := { ready with mode := .enc, blkrem := 2#32, tail := 1#4, msglen := 17#32 }

/-- The same with the decryption stream of a 32-byte message open (vector CBC-4). -/
def inDec : State := { ready with mode := .dec, blkrem := 2#32, msglen := 32#32 }

/-- A state with a command running and `n` cycles to go. -/
def running (w : Word) (n : Nat) : State := { ready with busy := true, pending := some w, latLeft := n }

/-- A state with an error latched. -/
def errored : State := { ready with err := true, done := true, errcode := some .noKey }

/-- What the host reads at these offsets after the step that runs the word `w`. -/
def after (w : Nat) (s : State) (offs : List (BitVec 8)) : List Word :=
  match step (s.withFetchWord 32 w) with
  | .next t => offs.map (hostRead t)
  | .fault _ => []
  | .refused _ => []

/-- STATUS, ERRCODE and OUTLEN after the step. -/
def flagsAfter (w : Nat) (s : State) : List Word := after w s [0x0C#8, 0x10#8, 0x20#8]

/-- The result of CBC_Decrypt as two options, the plaintext and the error. -/
def decryptResult (key : Key) (iv : Block) (c : List Byte) : Option (List Byte) × Option ErrorCode :=
  match cbcDecrypt key iv c with
  | .ok p => (some p, none)
  | .error e => (none, some e)

/-- OUTLEN and DOUT after the step. -/
def outAfter (w : Nat) (s : State) : List Word := after w s [0x20#8, 0x90#8, 0x94#8, 0x98#8, 0x9C#8]

/-! ## Well-formedness, decoding, reset -/

theorem test_wf_refuses_rcon_0 : (Instr.rcon 0#8).wellFormed = false := by decide
theorem test_wf_refuses_rcon_8 : (Instr.rcon 8#8).wellFormed = false := by decide
theorem test_wf_refuses_pad_16 : (Instr.pad 16#8).wellFormed = false := by decide

/-- Words of the table of 30_encoding.md R85, with their operands written out at bits 15:8 and 23:16. -/
theorem test_decode_words :
    [0x00000000, 0x00000001, 0x00CA5308, 0x0000CA09, 0x0000FF0A, 0x0000630B, 0x00001010, 0x00000011,
        0x00000012, 0x00000113, 0x00000F20, 0x00001121].map (decodeTableWord 32)
      = [some .nop, some .abort, some (.gmul 0x53#8 0xCA#8), some (.ginv 0xCA#8), some (.sbox 0xFF#8),
        some (.invsbox 0x63#8), some (.keyexp 16#8), some .rotword, some .subword, some (.rcon 1#8),
        some (.encb 15#8), some (.decb 17#8)] := by decide

theorem test_decode_words_block_pad_cbc :
    [0x00000022, 0x00000023, 0x00000024, 0x00000025, 0x00000026, 0x00000027, 0x00000028, 0x00000F30,
        0x00000031, 0x00000040, 0x00000140, 0x00000041, 0x00000042, 0x00000043].map (decodeTableWord 32)
      = [some .subbytes, some .invsubbytes, some .shiftrows, some .invshiftrows, some .mixcolumns,
        some .invmixcolumns, some .addrk, some (.pad 15#8), some .unpad, some (.cbceInit false),
        some (.cbceInit true), some .cbce, some .cbcdInit, some .cbcd] := by decide

/-- GF-18, GF-19, KS-10, KS-11, BT-30, PAD-6, CBC-17, CT-5, CT-6, CT-7. -/
theorem test_decode_refuses :
    [0x01000009, 0x00010009, 0x00000013, 0x00000813, 0x00000122, 0x00001030, 0x00000240, 0x00000101,
        0x00000002, 0x00000007, 0x000000FF, 0x01000000, 0x80000000].map (decodeTableWord 32)
      = List.replicate 13 none := by decide

theorem test_encode_words :
    [encode (.gmul 0x57#8 0x83#8), encode (.rcon 7#8), encode (.cbceInit true), encode .cbcd]
      = [0x00835708#32, 0x00000713#32, 0x00000140#32, 0x00000043#32] := by decide

/-- RS-1 to RS-5, HR-1, HR-2. -/
theorem test_reset_reads :
    (List.range 64).map (fun k => hostRead State.reset (BitVec.ofNat 8 (4 * k)))
      = [0x41323536#32, 0x00010000#32] ++ List.replicate 62 0#32 := by decide +kernel

/-! ## One step per instruction -/

/-- CT-1. -/
theorem test_nop : flagsAfter 0x00000000 State.reset = [0x2#32, 0#32, 0#32] := by decide +kernel
/-- CT-2. -/
theorem test_abort : after 0x00000001 inEnc [0x0C#8, 0x1C#8] = [0x12#32, 0#32] := by decide +kernel
/-- GF-1. -/
theorem test_gmul : outAfter 0x00835708 ready = [1#32, 0xC1000000#32, 0#32, 0#32, 0#32] := by decide +kernel
/-- GF-8. -/
theorem test_gmul_largest : outAfter 0x00FFFF08 ready = [1#32, 0x13000000#32, 0#32, 0#32, 0#32] := by
  decide +kernel
/-- GF-17. -/
theorem test_ginv : outAfter 0x0000FF09 ready = [1#32, 0x1C000000#32, 0#32, 0#32, 0#32] := by decide +kernel
/-- GF-INV0. -/
theorem test_ginv_zero : outAfter 0x00000009 ready = [1#32, 0#32, 0#32, 0#32, 0#32] := by decide +kernel
/-- SB-14: inside a stream, whose state it keeps. -/
theorem test_sbox_in_stream : after 0x0000530A inEnc [0x0C#8, 0x90#8] = [0x132#32, 0xED000000#32] := by
  decide +kernel
/-- SB-1. -/
theorem test_sbox_zero : outAfter 0x0000000A ready = [1#32, 0x63000000#32, 0#32, 0#32, 0#32] := by
  decide +kernel
/-- SB-13. -/
theorem test_invsbox : outAfter 0x0000FF0B ready = [1#32, 0x7D000000#32, 0#32, 0#32, 0#32] := by
  decide +kernel
/-- KS-12: words 8, 12, 20 and 59 of the expansion of K_FIPS. -/
theorem test_keyexp_words :
    [8, 12, 20, 59].map (fun n => (keyExpansion kFips).toList.getD n 0#32)
      = [0xA573C29F#32, 0x1651A8CD#32, 0x6DE1F148#32, 0x6D68DE36#32] := by decide +kernel
/-- KS-16. -/
theorem test_keyexp_in_stream : flagsAfter 0x00002010 inEnc = [0x16#32, 0x12#32, 0#32] := by decide +kernel
/-- KS-1. -/
theorem test_rotword :
    outAfter 0x00000011 { ready with din := ⟨0x09CF4F3C#32, 0#32, 0#32, 0#32⟩ }
      = [4#32, 0xCF4F3C09#32, 0#32, 0#32, 0#32] := by decide +kernel
/-- KS-5. -/
theorem test_subword :
    outAfter 0x00000012 { ready with din := ⟨0xCF4F3C09#32, 0#32, 0#32, 0#32⟩ }
      = [4#32, 0x8A84EB01#32, 0#32, 0#32, 0#32] := by decide +kernel
/-- KS-9. -/
theorem test_rcon : outAfter 0x00000713 ready = [4#32, 0x40000000#32, 0#32, 0#32, 0#32] := by decide +kernel
/-- KS-11: DOUT and OUTLEN keep the previous command's values. -/
theorem test_rcon_8_keeps_output :
    after 0x00000813 { ready with dout := ramp, outlen := 16#5 } [0x0C#8, 0x10#8, 0x20#8, 0x9C#8]
      = [0x16#32, 0x10#32, 16#32, 0xCCDDEEFF#32] := by decide +kernel
/-- KAT-1. -/
theorem test_encb :
    outAfter 0x00001020 { ready with rk := keyExpansion kFips }
      = [16#32, 0x8EA2B7CA#32, 0x516745BF#32, 0xEAFC4990#32, 0x4B496089#32] := by decide +kernel
/-- BT-14: NoKey before the length. -/
theorem test_encb_no_key : flagsAfter 0x00000820 State.reset = [0x6#32, 0x11#32, 0#32] := by decide +kernel
/-- BT-2. -/
theorem test_decb :
    outAfter 0x00001021
        { ready with
          rk := keyExpansion kFips
          din := ⟨0x8EA2B7CA#32, 0x516745BF#32, 0xEAFC4990#32, 0x4B496089#32⟩ }
      = [16#32, 0x00112233#32, 0x44556677#32, 0x8899AABB#32, 0xCCDDEEFF#32] := by decide +kernel
/-- BT-12. -/
theorem test_decb_length : flagsAfter 0x00001121 ready = [0x16#32, 0x02#32, 0#32] := by decide +kernel
/-- BT-15. -/
theorem test_subbytes :
    outAfter 0x00000022 ready
      = [16#32, 0x638293C3#32, 0x1BFC33F5#32, 0xC4EEACEA#32, 0x4BC12816#32] := by decide +kernel
/-- BT-17. -/
theorem test_invsubbytes :
    outAfter 0x00000023 { ready with din := ⟨0x638293C3#32, 0x1BFC33F5#32, 0xC4EEACEA#32, 0x4BC12816#32⟩ }
      = [16#32, 0x00112233#32, 0x44556677#32, 0x8899AABB#32, 0xCCDDEEFF#32] := by decide +kernel
/-- BT-19. -/
theorem test_shiftrows :
    outAfter 0x00000024 ready
      = [16#32, 0x0055AAFF#32, 0x4499EE33#32, 0x88DD2277#32, 0xCC1166BB#32] := by decide +kernel
/-- BT-22. -/
theorem test_invshiftrows :
    outAfter 0x00000025 { ready with din := count }
      = [16#32, 0x000D0A07#32, 0x04010E0B#32, 0x0805020F#32, 0x0C090603#32] := by decide +kernel
/-- BT-24. -/
theorem test_mixcolumns :
    outAfter 0x00000026 { ready with din := ⟨0xDB135345#32, 0xF20A225C#32, 0x01010101#32, 0xC6C6C6C6#32⟩ }
      = [16#32, 0x8E4DA1BC#32, 0x9FDC589D#32, 0x01010101#32, 0xC6C6C6C6#32] := by decide +kernel
/-- BT-25. -/
theorem test_invmixcolumns :
    outAfter 0x00000027 ready
      = [16#32, 0xAAFF88DD#32, 0xEEBBCC99#32, 0x22770055#32, 0x66334411#32] := by decide +kernel
/-- BT-27. -/
theorem test_addrk :
    outAfter 0x00000028 ready
      = [16#32, 0x00102030#32, 0x40506070#32, 0x8090A0B0#32, 0xC0D0E0F0#32] := by decide +kernel
/-- PAD-4. -/
theorem test_pad :
    outAfter 0x00000530 ready
      = [16#32, 0x00112233#32, 0x440B0B0B#32, 0x0B0B0B0B#32, 0x0B0B0B0B#32] := by decide +kernel
/-- PAD-FULL. -/
theorem test_pad_full :
    outAfter 0x00000030 ready
      = [16#32, 0x10101010#32, 0x10101010#32, 0x10101010#32, 0x10101010#32] := by decide +kernel
/-- UNPAD-1. -/
theorem test_unpad :
    outAfter 0x00000031 { ready with din := ⟨0x00112233#32, 0x440B0B0B#32, 0x0B0B0B0B#32, 0x0B0B0B0B#32⟩ }
      = [5#32, 0x00112233#32, 0x440B0B0B#32, 0x0B0B0B0B#32, 0x0B0B0B0B#32] := by decide +kernel
/-- UNPAD-12. -/
theorem test_unpad_invalid_in_stream :
    after 0x00000031 { inDec with dout := ramp, outlen := 16#5 } [0x0C#8, 0x10#8, 0x1C#8, 0x20#8, 0x90#8]
      = [0x16#32, 0x03#32, 0#32, 0#32, 0#32] := by decide +kernel
/-- CBC-10. -/
theorem test_cbce_init :
    after 0x00000040 { ready with msglen := 0xFFFFFFFF#32 } [0x0C#8, 0x1C#8, 0x7C#8]
      = [0xF32#32, 0x10000000#32, 0x0C0D0E0F#32] := by decide +kernel
/-- CBC-15 and CBC-16. -/
theorem test_cbce_init_gen :
    after 0x00000140 { ready with msglen := 64#32, iv := ramp, rngPort := [some count] }
        [0x0C#8, 0x6C#8, 0x7C#8] = [0x32#32, 0x0C0D0E0F#32, 0x0C0D0E0F#32]
    ∧ after 0x00000140 { ready with msglen := 16#32, rngPort := [none] } [0x0C#8, 0x10#8, 0x6C#8, 0x7C#8]
        = [0x16#32, 0x06#32, 0x0C0D0E0F#32, 0#32] := by decide +kernel
/-- CBC-3: the final block of a 17-byte message. -/
theorem test_cbce_final :
    after 0x00000041
        { inEnc with
          rk := keyExpansion kSp
          blkrem := 1#32
          chain := ⟨0xF58C4C04#32, 0xD6E5F1BA#32, 0x779EABFB#32, 0x5F7BFBD6#32⟩
          din := ⟨0xAE000000#32, 0#32, 0#32, 0#32⟩ }
        [0x0C#8, 0x1C#8, 0x20#8, 0x90#8, 0x9C#8, 0x74#8]
      = [0x12#32, 0#32, 16#32, 0x5A726C72#32, 0x3254D5CD#32, 0x6AFD31E4#32] := by decide +kernel
/-- CBC-18. -/
theorem test_cbce_idle : flagsAfter 0x00000041 ready = [0x16#32, 0x12#32, 0#32] := by decide +kernel
/-- CBC-11. -/
theorem test_cbcd_init :
    after 0x00000042 { ready with msglen := 0xFFFFFFF0#32 } [0x0C#8, 0x1C#8]
      = [0x52#32, 0x0FFFFFFF#32] := by decide +kernel
/-- CTLEN-1. -/
theorem test_cbcd_init_length :
    flagsAfter 0x00000042 { ready with msglen := 17#32 } = [0x16#32, 0x04#32, 0#32] := by decide +kernel
/-- CBC-6. -/
theorem test_cbcd_final :
    after 0x00000043
        { inDec with
          rk := keyExpansion kSp
          blkrem := 1#32
          chain := ⟨0xF58C4C04#32, 0xD6E5F1BA#32, 0x779EABFB#32, 0x5F7BFBD6#32⟩
          din := ⟨0x5A726C72#32, 0x6AFD31E4#32, 0xBEB89403#32, 0x3254D5CD#32⟩ }
        [0x0C#8, 0x1C#8, 0x20#8, 0x90#8, 0x9C#8, 0x7C#8]
      = [0x12#32, 0#32, 1#32, 0xAE0F0F0F#32, 0x0F0F0F0F#32, 0x3254D5CD#32] := by decide +kernel
/-- CBC-21. -/
theorem test_cbcd_in_enc : flagsAfter 0x00000043 inEnc = [0x16#32, 0x12#32, 0#32] := by decide +kernel
/-- The priority vector of L2.8: word 0x01000020 with KEYV 0. -/
theorem test_illegal_before_no_key :
    flagsAfter 0x01000020 State.reset = [0x6#32, 0x10#32, 0#32] := by decide +kernel

/-! ## Host accesses and the sequencer -/

/-- HR-7 and HR-8. -/
theorem test_writes_rejected_while_busy :
    hostWrite 0x80#8 5#32 (running 0#32 3) = { running 0#32 3 with reject := true }
    ∧ hostWrite 0x14#8 5#32 (running 0#32 3) = { running 0#32 3 with reject := true } := by decide +kernel
/-- HR-10. -/
theorem test_clear_error :
    hostWrite 0x0C#8 0x4#32 errored = { errored with err := false, errcode := none } := by decide +kernel
/-- HR-13. -/
theorem test_status_read_only_bits : hostWrite 0x0C#8 0x71#32 errored = errored := by decide +kernel
/-- HR-16 and HR-17. -/
theorem test_irq :
    irq (hostWrite 0x08#8 0x2#32 errored) = true
    ∧ irq (hostWrite 0x0C#8 0x4#32 (hostWrite 0x08#8 0x2#32 errored)) = false
    ∧ irq (hostWrite 0x08#8 0x1#32 errored) = true := by decide +kernel
/-- 20_memory.md R67: an 8-bit access and an access at offset 0x0E get a bus error. -/
theorem test_bus_error :
    (hostPhase (some ⟨0x0C#8, .bits8, .read⟩) ready).resp = some .busError
    ∧ (hostPhase (some ⟨0x0E#8, .bits32, .write 2#32⟩) errored).resp = some .busError := by decide +kernel
/-- A command that has cycles left keeps running (70_reset_and_hazards.md R320). -/
theorem test_step_counts :
    (match step (running 0x00000530#32 3) with
      | .next t => some (t.busy, t.latLeft)
      | .fault _ => none
      | .refused _ => none) = some (true, 2) := by decide +kernel
/-- The expansion of `ENCB` and of `LDIN` (30_encoding.md R89, R90). -/
theorem test_expand :
    (HostStmt.mnem .encb none none).expand = [⟨0x14#8, .bits32, .write 0x00001020#32⟩]
    ∧ (HostStmt.ldin ramp).expand.map Access.off = [0x80#8, 0x84#8, 0x88#8, 0x8C#8] := by decide +kernel
/-- CBC-9 and KAT-2: the one-block ciphertext of the empty message. -/
theorem test_cbc_decrypt_empty :
    decryptResult kSp count (bytesOf [⟨0x7E9248E5#32, 0xD829CA75#32, 0x93F0C549#32, 0xDB2F5B8C#32⟩])
      = (some [], none) := by decide +kernel
/-- CBC-7: the last byte changed. -/
theorem test_cbc_decrypt_tampered :
    decryptResult kSp count (bytesOf [⟨0x5A726C72#32, 0x6AFD31E4#32, 0xBEB89403#32, 0x3254D5CE#32⟩])
      = (none, some .invalidPadding) := by decide +kernel

/-! ## Open streams and errors are reached from reset -/

/-- A running command waited for through quiet cycles completes in a reachable state. -/
theorem reachable_wait (n : Nat) (rest : List Machine.Cycle) : ∀ s : State, Reachable s → s.busy = true →
    s.errcode = none → s.latLeft = n + 1 → s.inputs = List.replicate (n + 1) Cycle.quiet ++ rest →
    ∀ t, runPending { s with inputs := rest, latLeft := 1, resp := none } = .next t → Reachable t := by
  induction n with
  | zero =>
    intro s hr hb he hl hi t ht
    refine hr.step (t := t) ?_
    have hs : step s = runPending { s with inputs := rest, resp := none } := by
      simp [step, clockCycle, cycleInput, sequencerPhase, hostPhase, popInput, hb, he, hl, hi, Cycle.quiet]
    rw [hs]
    simpa [hl] using ht
  | succ n ih =>
    intro s hr hb he hl hi t ht
    refine ih { s with inputs := List.replicate (n + 1) Cycle.quiet ++ rest, latLeft := n + 1, resp := none }
      (hr.step ?_) hb he rfl rfl t ht
    simp [step, clockCycle, cycleInput, sequencerPhase, hostPhase, popInput, hb, he, hl, hi, Cycle.quiet,
      List.replicate_succ]

/-- A command written to CMD and waited for completes in a reachable state. -/
theorem reachable_command {s t : State} {w : Word} {i : Instr} {n : Nat} {rest : List Machine.Cycle}
    (hr : Reachable s) (hb : s.busy = false) (he : s.err = false) (hc : s.errcode = none)
    (hd : decode w = .ok i) (hn : commandLatency w s.rngDraws = n + 1)
    (hi : s.inputs = ⟨false, some ⟨0x14#8, .bits32, .write w⟩⟩ ::
      (List.replicate (n + 1) Cycle.quiet ++ rest))
    (ht : exec i { s with pending := some w, busy := true, done := false, latLeft := 1, inputs := rest,
                          resp := none } = .next t) :
    Reachable t := by
  refine reachable_wait n rest
    { s with pending := some w, busy := true, done := false, latLeft := n + 1, resp := some .ack,
             inputs := List.replicate (n + 1) Cycle.quiet ++ rest } (hr.step ?_) rfl hc rfl rfl t ?_
  · have hreg : regAt 0x14#8 = some .cmd := by decide
    simp [step, clockCycle, cycleInput, sequencerPhase, hostPhase, popInput, hb, he, hc, hi,
      Access.accepted, hostWrite, hreg, writeReg, Reg.readOnly, issue, hn]
  · simpa only [runPending, hd] using ht

/-- After MSGLEN is set to 16 and KEYEXP has completed. -/
def keyed (rest : List Machine.Cycle) : State :=
  { State.reset with
    msglen := 16#32
    rk := keyExpansion Key.zero
    keyv := true
    done := true
    inputs := rest }

theorem reachable_keyed (rest : List Machine.Cycle) : Reachable (keyed rest) := by
  let n := Config.latencyBeyondFirst (some .keyexp)
  let cmd : Machine.Cycle := ⟨false, some ⟨0x14#8, .bits32, .write 0x00002010#32⟩⟩
  have h1 := (Reachable.reset (⟨false, some ⟨0x18#8, .bits32, .write 16#32⟩⟩ :: cmd ::
    (List.replicate (n + 1) Cycle.quiet ++ rest)) []).step rfl
  exact reachable_command (i := .keyexp 32#8) (n := n) h1 rfl rfl rfl rfl rfl rfl rfl

/-- A reachable state with an encryption stream open: MSGLEN = 16, so two blocks and no tail. -/
theorem witness_reachable_enc : ∃ s, Reachable s ∧ s.mode = .enc ∧ s.blkrem = 2#32 ∧ s.keyv = true :=
  ⟨_, reachable_command (i := .cbceInit false) (n := Config.latencyBeyondFirst (some .cbceInit))
    (rest := []) (reachable_keyed _) rfl rfl rfl (w := 0x00000040#32) rfl rfl rfl rfl, by decide +kernel⟩

/-- A reachable state with a decryption stream open: MSGLEN = 16, so one block. -/
theorem witness_reachable_dec : ∃ s, Reachable s ∧ s.mode = .dec ∧ s.blkrem = 1#32 ∧ s.tail = 0#4 :=
  ⟨_, reachable_command (i := .cbcdInit) (n := Config.latencyBeyondFirst (some .cbcdInit))
    (rest := []) (reachable_keyed _) rfl rfl rfl (w := 0x00000042#32) rfl rfl rfl rfl, by decide +kernel⟩

/-- A reachable state with a command running. -/
theorem witness_reachable_busy : ∃ s, Reachable s ∧ s.busy = true ∧ s.keyv = false :=
  ⟨_, (Reachable.reset [⟨false, some ⟨0x14#8, .bits32, .write 0#32⟩⟩] []).step rfl, by decide +kernel⟩

/-! ## Witnesses: a state and operands that meet the hypotheses of each statement

Named after the statement, one for each of its clauses, at boundary values. -/

theorem inv_reset : Inv State.reset := by constructor <;> decide +kernel
theorem inv_ready : Inv ready := by constructor <;> decide +kernel
theorem inv_inEnc : Inv inEnc := by constructor <;> decide +kernel
theorem inv_inDec : Inv inDec := by constructor <;> decide +kernel
theorem inv_running : Inv (running 0x00000530#32 3) := by constructor <;> decide +kernel
theorem inv_errored : Inv errored := by constructor <;> decide +kernel
/-- The largest streams, the last step of each (46_cbc.md R222). -/
theorem inv_bounds : Inv { ready with mode := .enc, blkrem := 0x10000000#32, tail := 15#4 }
    ∧ Inv { ready with mode := .dec, blkrem := 0x0FFFFFFF#32 }
    ∧ Inv { ready with mode := .enc, blkrem := 1#32 } := by
  refine ⟨?_, ?_, ?_⟩ <;> constructor <;> decide +kernel

/-- A cycle with a write of CMD, of STATUS, and with the reset input. -/
def cmdCycle (w : Word) : Machine.Cycle := ⟨false, some ⟨0x14#8, .bits32, .write w⟩⟩
def statusCycle (w : Word) : Machine.Cycle := ⟨false, some ⟨0x0C#8, .bits32, .write w⟩⟩
def resetCycle : Machine.Cycle := ⟨true, some ⟨0x14#8, .bits32, .write 0#32⟩⟩

theorem witness_EncodedCommandDecodesToItself :
    ∀ i ∈ [Instr.rcon 1#8, .rcon 7#8, .pad 0#8, .pad 15#8, .gmul 255#8 255#8, .cbceInit true],
      i.wellFormed = true := by decide
theorem witness_DecodedWordIsTheEncodedCommand :
    decode 0x00000F30#32 = .ok (.pad 15#8) ∧ decode 0x00FFFF08#32 = .ok (.gmul 255#8 255#8) := by decide
theorem witness_OpcodeRowsAreDisjoint :
    let r : Row := ⟨.gmul, 0x00000008#32, 0xFF0000FF#32⟩
    r ∈ opcodeTable ∧ r.holds 0x00835708#32 = true := by decide
theorem witness_ReservedWordsRaiseIllegalCommand :
    (∀ n ∈ [0x02, 0x07, 0x0C, 0x0F, 0x14, 0x1F, 0x29, 0x2F, 0x32, 0x3F, 0x44,
        0xFF, 0x01000009, 0x80000000, 0x00010009, 0x00000101, 0x00000122, 0x00000240],
      let w := BitVec.ofNat 32 n
      (running w 1).pending = some w
        ∧ ((0x02 ≤ (opField w).toNat ∧ (opField w).toNat ≤ 0x07)
          ∨ (0x0C ≤ (opField w).toNat ∧ (opField w).toNat ≤ 0x0F)
          ∨ (0x14 ≤ (opField w).toNat ∧ (opField w).toNat ≤ 0x1F)
          ∨ (0x29 ≤ (opField w).toNat ∧ (opField w).toNat ≤ 0x2F)
          ∨ (0x32 ≤ (opField w).toNat ∧ (opField w).toNat ≤ 0x3F)
          ∨ 0x44 ≤ (opField w).toNat
          ∨ rsvField w ≠ 0#8
          ∨ (f2Field w ≠ 0#8 ∧ opField w ≠ 0x08#8)
          ∨ (f1Field w ≠ 0#8 ∧ opField w ∈ [0x01#8, 0x22#8])
          ∨ (f1Field w ≠ 0#8 ∧ f1Field w ≠ 1#8 ∧ opField w = 0x40#8)))
    ∧ decode 0#32 = .ok .nop := by decide +kernel

theorem witness_StepRunsThePendingCommand :
    (∀ w ∈ [0x00000530#32, 0x02#32],
      (running w 1).errcode ≠ some .truncatedInput ∧ (cycleInput (running w 1)).reset = false
        ∧ (running w 1).busy = true ∧ (running w 1).latLeft ≤ 1 ∧ (running w 1).pending = some w)
    ∧ decode 0x00000530#32 = .ok (.pad 5#8) ∧ decode 0x02#32 = .error .noRow :=
  ⟨fun _ _ => ⟨nofun, rfl, rfl, Nat.le_refl 1, rfl⟩, by decide, by decide⟩
theorem witness_PlacedWordRunsAtTheNextStep :
    0x00000530 < 2 ^ 32 ∧ decode (BitVec.ofNat 32 0x00000530) = .ok (.pad 5#8) := by decide
theorem witness_OperandsAreFrozenWhileBusy :
    let s := { running 0x00000530#32 3 with inputs := [cmdCycle 1#32, statusCycle 2#32, resetCycle] }
    s.busy = true ∧ 2 < s.latLeft ∧ (∀ c ∈ s.inputs.take 2, c.reset = false)
      ∧ ∃ t, core.run 2 s = .next t :=
  ⟨rfl, by decide, by decide, _, rfl⟩
theorem witness_CommandCompletesLatencyCyclesAfterIssue :
    let rest := [statusCycle 2#32, cmdCycle 1#32]
    let s := { State.reset with inputs := cmdCycle 0x00000530#32 :: rest }
    Inv s ∧ s.busy = false ∧ s.err = false
      ∧ ∀ c ∈ rest.take (commandLatency 0x00000530#32 s.rngDraws), c.reset = false := by
  refine ⟨by constructor <;> decide +kernel, rfl, rfl, fun c hc => ?_⟩
  have hall : ∀ c ∈ [statusCycle 2#32, cmdCycle 1#32], c.reset = false := by decide
  exact hall c (List.mem_of_mem_take hc)
theorem witness_SameCycleTransactionComesFirst :
    ∀ c ∈ [statusCycle 2#32, cmdCycle 1#32, resetCycle],
      Inv { running 0#32 1 with inputs := [c] } ∧ (running 0#32 1).busy = true
        ∧ (running 0#32 1).latLeft = 1 := by
  intro c _
  obtain ⟨h1, h2, h3, h4, h5, h6, h7, h8, h9, h10, h11, h12⟩ :=
    show Inv (running 0#32 1) by constructor <;> decide +kernel
  exact ⟨⟨h1, h2, h3, h4, h5, h6, h7, h8, h9, h10, h11, h12⟩, rfl, rfl⟩
theorem witness_ResetClearsEverything :
    let s := { running 0x00000530#32 3 with inputs := [resetCycle, cmdCycle 0#32] }
    s.errcode ≠ some .truncatedInput ∧ s.inputs.headD Cycle.quiet = resetCycle := by decide +kernel
theorem witness_EveryStepKeepsTheInvariant :
    (Inv State.reset ∧ ∃ t, step State.reset = .next t)
    ∧ Inv (running 0x00000530#32 3) ∧ ∃ t, step (running 0x00000530#32 3) = .next t :=
  ⟨⟨inv_reset, _, rfl⟩, inv_running, _, rfl⟩
theorem witness_InvariantsHoldInEveryReachableState : Reachable State.reset := Reachable.reset [] []
theorem witness_InvariantStatesNeverStop : Inv inEnc ∧ Inv inDec ∧ Inv errored :=
  ⟨inv_inEnc, inv_inDec, inv_errored⟩

theorem witness_ReadsReturnTheRegisterAndChangeNothing :
    (0x00#8 : BitVec 8).toNat % 4 = 0 ∧ (0xFC#8 : BitVec 8).toNat % 4 = 0 ∧ errored.errcode = some .noKey
      ∧ ready.errcode = none := by decide
theorem witness_RefusedAccessesGetABusError :
    (⟨0x0C#8, .bits8, .read⟩ : Access).width ≠ .bits32
      ∧ (⟨0x0C#8, .bits64, .write 0#32⟩ : Access).width ≠ .bits32
      ∧ (⟨0x01#8, .bits32, .read⟩ : Access).off.toNat % 4 ≠ 0
      ∧ (⟨0xFF#8, .bits32, .read⟩ : Access).off.toNat % 4 ≠ 0 := by decide
theorem witness_HostWritesFollowThePrecedence :
    (running 0#32 1).busy = true ∧ (errored.busy = false ∧ errored.err = true)
      ∧ (ready.busy = false ∧ ready.err = false) := by decide +kernel
theorem witness_RejectedWritesSetOnlyReject :
    (running 0#32 1).busy = true ∧ errored.err = true
      ∧ (∀ off ∈ [0x40#8, 0x6C#8], 0x40 ≤ off.toNat ∧ off.toNat < 0x70 ∧ off.toNat % 4 = 0)
      ∧ (∀ off ∈ [0x80#8, 0x8C#8], 0x80 ≤ off.toNat ∧ off.toNat < 0x90 ∧ off.toNat % 4 = 0)
      ∧ (hostWrite 0x08#8 3#32 { running 0#32 1 with reject := true }).reject = true := by decide +kernel
theorem witness_AcceptedCommandIsIssued :
    (ready.busy = false ∧ ready.err = false) ∧ (running 0#32 1).busy = true ∧ errored.err = true := by
  decide +kernel
theorem witness_StatusWordShowsTheFlags : 0 < 32 ∧ 31 < 32 := by decide
theorem witness_IrqFollowsDoneAndErr :
    (ready.busy = false ∧ ready.err = false) ∧ ∃ t, exec .cbce ready = .next t ∧ t.err = true :=
  ⟨by decide, _, rfl, rfl⟩
theorem witness_WindowAddressingAndUnmappedSlots :
    (Config.base ≤ Config.base + 255 ∧ Config.base + 255 < Config.base + 256)
      ∧ (Config.base + 256 < Config.base ∨ Config.base + 256 ≤ Config.base + 256)
      ∧ ∀ off ∈ [0x24#8, 0x3F#8, 0xA0#8, 0xFF#8],
        (0x24 ≤ off.toNat ∧ off.toNat < 0x40) ∨ 0xA0 ≤ off.toNat :=
  ⟨by omega, by omega, by decide⟩
theorem witness_RepeatedWritesAreIdempotent :
    (0x0C#8 : BitVec 8) ≠ 0x14#8 ∧ (running 0#32 1).busy = true ∧ errored.err = true := by decide
theorem witness_ClearingTheErrorReadmitsCommands : errored.busy = false ∧ errored.err = true := by decide

theorem witness_NopChangesNothing :
    ∀ n ∈ [0x00000100, 0x80000000],
      (BitVec.ofNat 32 n).extractLsb' 8 24 ≠ 0#24 ∧ opField (BitVec.ofNat 32 n) = 0x00#8 := by
  decide +kernel
theorem witness_GmulAndGinvGiveTheByte : (0x00#8 : Byte) = 0x00#8 ∧ (0x01#8 : Byte) ≠ 0x00#8 := by decide
theorem witness_InverseIsTheUniqueInverse : (0x53#8 : Byte) ≠ 0x00#8 ∧ gmul 0x53#8 0xCA#8 = 0x01#8 := by
  decide +kernel
theorem witness_KeyexpExpandsTheKey :
    ready.mode = .idle ∧ inEnc.mode ≠ .idle ∧ inDec.mode ≠ .idle ∧ (31#8 : Byte) ≠ 32#8 := by decide
theorem witness_KeyExpansionFollowsItsRecurrence : 8 ≤ 8 ∧ 59 < 60 ∧ 7 < 8 := by decide
theorem witness_RotwordSubwordRconGiveTheWord :
    (∀ j ∈ [1#8, 7#8], 1 ≤ j.toNat ∧ j.toNat ≤ 7) ∧ ∀ j ∈ [0#8, 8#8, 255#8], j.toNat = 0 ∨ 8 ≤ j.toNat := by
  decide
theorem witness_EncbAndDecbRunTheCipher :
    ready.keyv = true ∧ State.reset.keyv = false ∧ (15#8 : Byte) ≠ 16#8 ∧ (17#8 : Byte) ≠ 16#8
      ∧ (1 ≤ 1 ∧ 13 ≤ 13) ∧ 15 < 16 ∧ 3 < 4 := by decide
theorem witness_PadFillsTheTail : (15#8 : Byte).toNat ≤ 15 ∧ 15 < (16#8 : Byte).toNat := by decide
theorem witness_UnpadChecksThePadding :
    let full : Block := ⟨0x10101010#32, 0x10101010#32, 0x10101010#32, 0x10101010#32⟩
    let one : Block := ⟨0x00112233#32, 0x44556677#32, 0x8899AABB#32, 0xCCDDEE01#32⟩
    (∀ i, 16 - 16 ≤ i → i < 16 → (full.byte i).toNat = 16)
    ∧ (∀ i, 16 - 1 ≤ i → i < 16 → (one.byte i).toNat = 1)
    ∧ ¬ ∃ n : Nat, 1 ≤ n ∧ n ≤ 16 ∧ ∀ i, 16 - n ≤ i → i < 16 → (Block.zero.byte i).toNat = n := by
  refine ⟨fun i _ h => ?_, fun i h1 h2 => ?_, fun h => ?_⟩
  · interval_cases i <;> decide
  · obtain rfl : i = 15 := by omega
    decide
  · obtain ⟨n, h1, h2, h⟩ := h
    have h15 := h 15 (by omega) (by omega)
    have h0 : (Block.zero.byte 15).toNat = 0 := by decide
    omega
theorem witness_PaddingRoundTrips :
    (15#8 : Byte).toNat ≤ 15 ∧ ∃ u v, exec (.pad 15#8) ready = .next u
      ∧ exec .unpad { u with din := u.dout } = .next v := by
  obtain ⟨t, h⟩ : ∃ t, exec .unpad { complete (putBlock (padblock ramp 15) 16#5 ready) with
      din := (complete (putBlock (padblock ramp 15) 16#5 ready)).dout } = .next t := by
    rcases exec_cases .unpad { complete (putBlock (padblock ramp 15) 16#5 ready) with
      din := (complete (putBlock (padblock ramp 15) 16#5 ready)).dout } with ⟨u, h, _⟩ | ⟨e, u, h, _⟩
    · exact ⟨_, h⟩
    · exact ⟨_, h⟩
  exact ⟨by decide, _, t, rfl, h⟩
theorem witness_TamperedFinalByteIsRejected :
    padcheck (padblock ramp 14) = some 2 ∧ padcheck (padblock ramp 15) = some 1
      ∧ (0x01#8 : Byte).toNat ≠ 2 ∧ (0x02#8 : Byte).toNat ≠ 1 := by decide +kernel

theorem witness_CbceInitOpensAnEncryptionStream :
    (inEnc.mode ≠ .idle ∧ inDec.mode ≠ .idle) ∧ (State.reset.mode = .idle ∧ State.reset.keyv = false)
      ∧ (ready.mode = .idle ∧ ready.keyv = true)
      ∧ nextAnswer { ready with rngPort := [none] } = none
      ∧ nextAnswer { ready with rngPort := [some count] } = some count := by decide +kernel
theorem witness_CbceEncryptsAndChains :
    (ready.mode ≠ .enc ∧ inDec.mode ≠ .enc) ∧ inEnc.mode = .enc ∧ 1 ≤ inEnc.blkrem.toNat := by decide
theorem witness_CbcdInitOpensADecryptionStream :
    (inEnc.mode ≠ .idle ∧ inDec.mode ≠ .idle) ∧ (State.reset.mode = .idle ∧ State.reset.keyv = false)
      ∧ (ready.mode = .idle ∧ ready.keyv = true)
      ∧ (ready.msglen.toNat = 0 ∧ inEnc.msglen.toNat % 16 ≠ 0)
      ∧ ∀ n ∈ [16, 0xFFFFFFF0], 0 < (BitVec.ofNat 32 n).toNat ∧ (BitVec.ofNat 32 n).toNat % 16 = 0 := by
  decide +kernel
theorem witness_CbcdDecryptsAndChains :
    (ready.mode ≠ .dec ∧ inEnc.mode ≠ .dec) ∧ (inDec.mode = .dec ∧ 2 ≤ inDec.blkrem.toNat)
      ∧ { inDec with blkrem := 1#32 }.blkrem = 1#32 := by decide
/-- A 16-byte plaintext, so a data block and a block of padding. -/
theorem witness_EncryptionStreamComputesCbc :
    let s := { ready with rk := keyExpansion kSp, msglen := 16#32 }
    ∃ s1, s.keyv = true ∧ s.rk = keyExpansion kSp ∧ s.msglen.toNat = ramp.bytes.length ∧ s.mode = .idle
      ∧ exec (.cbceInit false) s = .next s1 ∧ s1.mode = .enc
      ∧ [ramp, count].length = ramp.bytes.length / 16 + 1
      ∧ ∀ j i, j < 2 → i < 16 → 16 * j + i < ramp.bytes.length →
        ([ramp, count].getD j Block.zero).byte i = ramp.bytes.getD (16 * j + i) 0x00#8 := by
  refine ⟨_, rfl, rfl, by decide, rfl, rfl, rfl, by decide, fun j i _ hi hl => ?_⟩
  have hlen : ramp.bytes.length = 16 := by decide
  obtain rfl : j = 0 := by omega
  interval_cases i <;> decide
/-- With GEN = 1 and an answer at the port. -/
theorem witness_EncryptionStreamComputesCbc_gen :
    ∃ s1, exec (.cbceInit true) { ready with rngPort := [some count] } = .next s1 ∧ s1.mode = .enc :=
  ⟨_, rfl, rfl⟩
/-- The two tests of CBC_Decrypt above give the other two outcomes for ciphertexts of 16 bytes. -/
theorem witness_DecryptionStreamComputesCbc :
    (∀ n ∈ [0#32, 16#32, 17#32],
      let s := { ready with rk := keyExpansion kSp, msglen := n }
      s.keyv = true ∧ s.rk = keyExpansion kSp
        ∧ s.msglen.toNat = (List.replicate n.toNat (0x00#8 : Byte)).length
        ∧ s.mode = .idle ∧ s.err = false ∧ s.errcode = none ∧ ∃ s1, exec .cbcdInit s = .next s1)
    ∧ decryptResult kSp count (List.replicate 17 0x00#8) = (none, some .invalidCiphertextLength)
    ∧ decryptResult kSp count [] = (none, some .invalidCiphertextLength) := by
  refine ⟨fun n hn => ⟨rfl, rfl, ?_, rfl, rfl, rfl, ?_⟩, rfl, rfl⟩
  · simp
  · rcases exec_cases .cbcdInit { ready with rk := keyExpansion kSp, msglen := n } with
      ⟨u, h, _⟩ | ⟨e, u, h, _⟩
    · exact ⟨_, h⟩
    · exact ⟨_, h⟩

theorem witness_ErrorsCommitOnlyTheErrorState :
    (ready.err = false ∧ ∃ t, exec .cbce ready = .next t ∧ t.err = true)
    ∧ ∃ t, exec (.cbceInit true) { ready with rngPort := [none] } = .next t ∧ t.err = true :=
  ⟨⟨rfl, _, rfl, rfl⟩, _, rfl, rfl⟩
theorem witness_ErrorsAreRaisedOnlyWhereListed :
    ready.errcode = none
    ∧ (∃ t, exec .cbce ready = .next t ∧ t.errcode = some .sequenceError)
    ∧ (∃ t, exec (.keyexp 16#8) ready = .next t ∧ t.errcode = some .invalidKeyLength)
    ∧ (∃ t, exec (.encb 15#8) ready = .next t ∧ t.errcode = some .invalidBlockSize)
    ∧ (∃ t, exec (.encb 16#8) State.reset = .next t ∧ t.errcode = some .noKey)
    ∧ (∃ t, exec .unpad State.reset = .next t ∧ t.errcode = some .invalidPadding)
    ∧ (∃ t, exec .cbcdInit ready = .next t ∧ t.errcode = some .invalidCiphertextLength)
    ∧ (∃ t, exec (.rcon 8#8) ready = .next t ∧ t.errcode = some .illegalCommand)
    ∧ ∃ t, exec (.cbceInit true) { ready with rngPort := [none] } = .next t
        ∧ t.errcode = some .rngFailure :=
  ⟨rfl, ⟨_, rfl, rfl⟩, ⟨_, rfl, rfl⟩, ⟨_, rfl, rfl⟩, ⟨_, rfl, rfl⟩, ⟨_, rfl, rfl⟩, ⟨_, rfl, rfl⟩,
    ⟨_, rfl, rfl⟩, _, rfl, rfl⟩
theorem witness_OtherCommandsLeaveTheStream :
    (inEnc.err = false ∧ inEnc.mode ≠ .idle)
    ∧ (Instr.nop.op ∉ [Op.keyexp, Op.cbceInit, Op.cbce, Op.cbcdInit, Op.cbcd, Op.abort]
      ∧ ∃ t, exec .nop inEnc = .next t ∧ t.err = false)
    ∧ (∃ t, exec (.encb 15#8) inEnc = .next t ∧ t.err = true)
    ∧ Instr.cbcdInit.op ∈ [Op.keyexp, Op.cbceInit, Op.cbcdInit] ∧ ∃ t, exec .cbcdInit inEnc = .next t :=
  ⟨⟨rfl, by decide⟩, ⟨by decide, _, rfl, rfl⟩, ⟨_, rfl, rfl⟩, by decide, _, rfl⟩
theorem witness_CommandsNeverWriteHostRegisters :
    (∃ t, exec .cbce inDec = .next t) ∧ Instr.cbce ≠ .cbceInit true := ⟨⟨_, rfl⟩, by decide⟩
theorem witness_OnlyKeyexpAndResetWriteRoundKeys :
    (∃ t, step { State.reset with busy := true, pending := some 0x00002010#32, latLeft := 1 } = .next t
      ∧ ¬ SameRoundKeys { State.reset with busy := true, pending := some 0x00002010#32, latLeft := 1 } t)
    ∧ ∃ t, step { ready with inputs := [resetCycle] } = .next t
      ∧ ¬ SameRoundKeys { ready with inputs := [resetCycle] } t :=
  ⟨⟨_, rfl, fun h => absurd h.2 (by decide +kernel)⟩, _, rfl, fun h => absurd h.2 (by decide +kernel)⟩
theorem witness_LatencyDependsOnTheDecodedCommandOnly :
    (ready.busy = false ∧ ready.err = false) ∧ decode 0x00000530#32 = .ok (.pad 5#8)
      ∧ decode 0x00000F30#32 = .ok (.pad 15#8) ∧ (Instr.pad 5#8).op = (Instr.pad 15#8).op
      ∧ decode 0x02#32 = .error .noRow ∧ decode 0x01000000#32 = .error .reservedByte
      ∧ ready.rngDraws = State.reset.rngDraws := by decide
theorem witness_HostStatementsAccessTheRegisters : ready.busy = false ∧ ready.err = false := by decide
theorem witness_WaitLoopEnds : Inv ready ∧ Inv (running 0x00000530#32 3) := ⟨inv_ready, inv_running⟩

end Sys2Proof.Tests
end

/-!
# The state and its invariant (10_state.md)

The cases of a command's end, of a host write and of a clock cycle, each said once, and from them the
statements about the state: what every step keeps, what a command never writes, and that nothing stops.
-/

namespace Sys2Proof.Machine

/-! ## How a command ends -/

/-- `Ends s i t`: command `i`, completed on `s`, leaves `t`. One constructor for each way a command can
end, with the guards under which it does. -/
inductive Ends (s : State) : Instr → State → Prop
  | nothing : Ends s .nop (complete s)
  | closes : Ends s .abort (complete { s with mode := .idle, blkrem := 0#32, tail := 0#4 })
  | output {i : Instr} (b : Block) (n : BitVec 5) (hn : n.toNat ≤ 16) :
      Ends s i (complete (putBlock b n s))
  | expands (len : Byte) (hm : s.mode = .idle) :
      Ends s (.keyexp len) (complete { s with rk := keyExpansion s.key, keyv := true })
  | opensEnc (gen : Bool) (hm : s.mode = .idle) (hk : s.keyv = true) (u : State)
      (hu : u = s ∨ ∃ v, u = { afterDraw s with iv := v }) :
      Ends s (.cbceInit gen) (complete (openEncryption u))
  | encryptsFinal (hm : s.mode = .enc) (hr : s.blkrem = 1#32) (c : Block) :
      Ends s .cbce
        (complete { putBlock c 16#5 s with chain := c, blkrem := 0#32, mode := .idle, tail := 0#4 })
  | encryptsNext (hm : s.mode = .enc) (hr : s.blkrem ≠ 1#32) (c : Block) :
      Ends s .cbce (complete { putBlock c 16#5 s with chain := c, blkrem := s.blkrem - 1#32 })
  | opensDec (hm : s.mode = .idle) (hk : s.keyv = true) (hl : s.msglen ≠ 0#32)
      (hd : s.msglen % 16#32 = 0#32) :
      Ends s .cbcdInit
        (complete { s with chain := s.iv, blkrem := s.msglen / 16#32, mode := .dec })
  | decryptsFinal (hm : s.mode = .dec) (hr : s.blkrem = 1#32) (p : Block) (n : BitVec 5)
      (hn : n.toNat ≤ 16) :
      Ends s .cbcd
        (complete { putBlock p n s with chain := s.din, blkrem := 0#32, mode := .idle })
  | decryptsNext (hm : s.mode = .dec) (hr : s.blkrem ≠ 1#32) (p : Block) :
      Ends s .cbcd (complete { putBlock p 16#5 s with chain := s.din, blkrem := s.blkrem - 1#32 })
  | errs {i : Instr} (e : ErrorCode) (he : mayRaise i e) (u : State)
      (hu : u = s ∨ (i = .cbceInit true ∧ u = afterDraw s)) : Ends s i (raise e u)

/-- An error raised on the state as it stood. -/
theorem Ends.err {s : State} {i : Instr} {e : ErrorCode} (he : mayRaise i e) : Ends s i (raise e s) :=
  .errs e he s (.inl rfl)

/-- The number of data bytes that an unpadded block leaves is at most 16 (45_padding.md R205). -/
theorem dataBytes_le (n : Nat) : (BitVec.ofNat 5 (16 - n)).toNat ≤ 16 := by
  rw [BitVec.toNat_ofNat]
  omega

theorem execKeyexp_ends (len : Byte) (s : State) :
    ∃ t, execKeyexp len s = .next t ∧ Ends s (.keyexp len) t := by
  unfold execKeyexp
  split_ifs with hm hl
  · exact ⟨_, rfl, .err (.inl rfl)⟩
  · exact ⟨_, rfl, .err rfl⟩
  · exact ⟨_, rfl, .expands len (not_not.mp hm)⟩

theorem execRcon_ends (j : Byte) (s : State) : ∃ t, execRcon j s = .next t ∧ Ends s (.rcon j) t := by
  unfold execRcon
  split_ifs with hj
  · exact ⟨_, rfl, .output _ 4#5 (by decide)⟩
  · exact ⟨_, rfl, .err (by simpa [mayRaise, Instr.wellFormed] using hj)⟩

theorem execEncb_ends (len : Byte) (s : State) :
    ∃ t, execEncb len s = .next t ∧ Ends s (.encb len) t := by
  unfold execEncb
  split_ifs
  · exact ⟨_, rfl, .err (.inl rfl)⟩
  · exact ⟨_, rfl, .err (.inl rfl)⟩
  · exact ⟨_, rfl, .output _ 16#5 (by decide)⟩

theorem execDecb_ends (len : Byte) (s : State) :
    ∃ t, execDecb len s = .next t ∧ Ends s (.decb len) t := by
  unfold execDecb
  split_ifs
  · exact ⟨_, rfl, .err (.inr (.inl rfl))⟩
  · exact ⟨_, rfl, .err (.inr rfl)⟩
  · exact ⟨_, rfl, .output _ 16#5 (by decide)⟩

theorem execPad_ends (n : Byte) (s : State) : ∃ t, execPad n s = .next t ∧ Ends s (.pad n) t := by
  unfold execPad
  split_ifs with hn
  · exact ⟨_, rfl, .err (by simpa [mayRaise, Instr.wellFormed] using hn)⟩
  · exact ⟨_, rfl, .output _ 16#5 (by decide)⟩

theorem execUnpad_ends (s : State) : ∃ t, execUnpad s = .next t ∧ Ends s .unpad t := by
  unfold execUnpad
  split
  · exact ⟨_, rfl, .err (.inl rfl)⟩
  · exact ⟨_, rfl, .output _ _ (dataBytes_le _)⟩

theorem execCbceInit_ends (gen : Bool) (s : State) :
    ∃ t, execCbceInit gen s = .next t ∧ Ends s (.cbceInit gen) t := by
  unfold execCbceInit
  split_ifs with hm hk hg
  · exact ⟨_, rfl, .err (.inr (.inl rfl))⟩
  · exact ⟨_, rfl, .err (.inr (.inr (.inl rfl)))⟩
  · subst hg
    rw [rngDraw_eq]
    dsimp only
    split
    · exact ⟨_, rfl, .errs .rngFailure rfl _ (.inr ⟨rfl, rfl⟩)⟩
    · exact ⟨_, rfl, .opensEnc true (not_not.mp hm) (by simpa using hk) _ (.inr ⟨_, rfl⟩)⟩
  · exact ⟨_, rfl, .opensEnc gen (not_not.mp hm) (by simpa using hk) s (.inl rfl)⟩

theorem execCbce_ends (s : State) : ∃ t, execCbce s = .next t ∧ Ends s .cbce t := by
  unfold execCbce
  split_ifs with hm hr
  · exact ⟨_, rfl, .err (.inr (.inr (.inr (.inl rfl))))⟩
  · refine ⟨_, rfl, ?_⟩
    simpa [hr] using Ends.encryptsFinal (not_not.mp hm) hr _
  · have hr' : s.blkrem - 1#32 ≠ 0#32 := by bv_omega
    refine ⟨_, rfl, ?_⟩
    simpa [hr'] using Ends.encryptsNext (not_not.mp hm) hr _

theorem execCbcdInit_ends (s : State) : ∃ t, execCbcdInit s = .next t ∧ Ends s .cbcdInit t := by
  unfold execCbcdInit
  split_ifs with hm hk hl
  · exact ⟨_, rfl, .err (.inr (.inr (.inl rfl)))⟩
  · exact ⟨_, rfl, .err (.inr (.inr (.inr rfl)))⟩
  · exact ⟨_, rfl, .err rfl⟩
  · obtain ⟨hl, hd⟩ := not_or.mp hl
    exact ⟨_, rfl, .opensDec (not_not.mp hm) (by simpa using hk) hl (not_not.mp hd)⟩

theorem execCbcd_ends (s : State) : ∃ t, execCbcd s = .next t ∧ Ends s .cbcd t := by
  unfold execCbcd
  split_ifs with hm hr
  · exact ⟨_, rfl, .err (.inr (.inr (.inr (.inr rfl))))⟩
  · dsimp only
    split
    · exact ⟨_, rfl, .err (.inr rfl)⟩
    · exact ⟨_, rfl, .decryptsFinal (not_not.mp hm) hr _ _ (dataBytes_le _)⟩
  · exact ⟨_, rfl, .decryptsNext (not_not.mp hm) hr _⟩

/-- Every command ends, in one of the ways of `Ends`. -/
theorem exec_ends (i : Instr) (s : State) : ∃ t, exec i s = .next t ∧ Ends s i t := by
  cases i with
  | nop => exact ⟨_, rfl, .nothing⟩
  | abort => exact ⟨_, rfl, .closes⟩
  | gmul | ginv | sbox | invsbox => exact ⟨_, rfl, .output _ 1#5 (by decide)⟩
  | rotword | subword => exact ⟨_, rfl, .output _ 4#5 (by decide)⟩
  | subbytes | invsubbytes | shiftrows | invshiftrows | mixcolumns | invmixcolumns | addrk =>
    exact ⟨_, rfl, .output _ 16#5 (by decide)⟩
  | keyexp len => exact execKeyexp_ends len s
  | rcon j => exact execRcon_ends j s
  | encb len => exact execEncb_ends len s
  | decb len => exact execDecb_ends len s
  | pad n => exact execPad_ends n s
  | unpad => exact execUnpad_ends s
  | cbceInit gen => exact execCbceInit_ends gen s
  | cbce => exact execCbce_ends s
  | cbcdInit => exact execCbcdInit_ends s
  | cbcd => exact execCbcd_ends s

theorem ends_of_exec {i : Instr} {s t : State} (h : exec i s = .next t) : Ends s i t := by
  obtain ⟨u, hu, he⟩ := exec_ends i s
  rw [hu] at h
  injection h with h
  exact h ▸ he

/-- Only a completing KEYEXP writes RK and KEYV, and it leaves KEYV = 1 (10_state.md R30, R43). -/
theorem Ends.roundKeys {i : Instr} {s t : State} (h : Ends s i t) :
    SameRoundKeys s t ∨ ((∃ len, i = .keyexp len) ∧ t.keyv = true) := by
  cases h with
  | expands len => exact .inr ⟨⟨len, rfl⟩, rfl⟩
  | opensEnc gen hm hk u hu => obtain rfl | ⟨v, rfl⟩ := hu <;> exact .inl ⟨rfl, rfl⟩
  | errs e he u hu => obtain rfl | ⟨-, rfl⟩ := hu <;> exact .inl ⟨rfl, rfl⟩
  | nothing | closes | output | encryptsFinal | encryptsNext | opensDec | decryptsFinal | decryptsNext =>
    exact .inl ⟨rfl, rfl⟩

/-! ## The part of the invariant that a command's writes touch -/

/-- The clauses of `Inv` about MODE, BLKREM, TAIL, KEYV, RK and OUTLEN. The others speak of the flags and
of the sequencer, which every completion writes in the same way. -/
structure DataInv (s : State) : Prop where
  idleIsClosed : s.mode = .idle → s.blkrem = 0#32 ∧ s.tail = 0#4
  streamIsOpen : s.mode ≠ .idle → 1 ≤ s.blkrem.toNat ∧ s.keyv = true
  decHasNoTail : s.mode = .dec → s.tail = 0#4
  noKeyNoWords : s.keyv = false → s.rk = Vector.replicate 60 0#32
  outlenBound : s.outlen.toNat ≤ 16
  encBound : s.mode = .enc → s.blkrem.toNat ≤ 0x10000000
  decBound : s.mode = .dec → s.blkrem.toNat ≤ 0x0FFFFFFF

theorem Inv.dataInv {s : State} (h : Inv s) : DataInv s := { h with }

/-- After completion's bookkeeping the clauses about the flags come down to those about ERR and
ERRCODE. -/
theorem inv_of_completed {t : State} (hc : Completed t) (hd : DataInv t)
    (he : t.err = false ↔ t.errcode = none) (hn : t.errcode ≠ some .truncatedInput) : Inv t := by
  obtain ⟨hbusy, -, hpend, hlat⟩ := hc
  exact { hd with
    busyIsClean := fun hb => by simp [hbusy] at hb
    restIsEmpty := fun _ => hpend
    errHasCode := he
    neverTruncated := hn
    countIsLive := by simp [hbusy, hlat] }

/-- A closed stream meets the clauses about the stream. -/
theorem DataInv.close {s : State} (h : DataInv s) {t : State} (hm : t.mode = .idle)
    (hb : t.blkrem = 0#32) (ht : t.tail = 0#4) (hk : SameRoundKeys s t) (ho : t.outlen.toNat ≤ 16) :
    DataInv t := by
  obtain ⟨hrk, hkeyv⟩ := hk
  exact {
    idleIsClosed := fun _ => ⟨hb, ht⟩
    streamIsOpen := fun h => absurd hm h
    decHasNoTail := fun _ => ht
    noKeyNoWords := by rw [hrk, hkeyv]; exact h.noKeyNoWords
    outlenBound := ho
    encBound := fun h => by simp [hm] at h
    decBound := fun h => by simp [hm] at h }

theorem DataInv.raise {s : State} (h : DataInv s) (e : ErrorCode) : DataInv (raise e s) := by
  refine h.close rfl rfl rfl ⟨rfl, rfl⟩ ?_
  rw [raise_outlen]
  split_ifs
  · decide
  · exact h.outlenBound

theorem DataInv.openEncryption {s : State} (h : DataInv s) (hk : s.keyv = true) :
    DataInv (openEncryption s) := by
  have hlt := s.msglen.isLt
  have hq : (s.msglen / 16#32 + 1#32).toNat = s.msglen.toNat / 16 + 1 := by
    rw [BitVec.toNat_add, BitVec.toNat_udiv]
    simp only [BitVec.toNat_ofNat, Nat.reducePow, Nat.reduceMod]
    omega
  exact { h with
    idleIsClosed := nofun
    streamIsOpen := fun _ => ⟨by rw [openEncryption_blkrem, hq]; omega, hk⟩
    decHasNoTail := nofun
    encBound := fun _ => by rw [openEncryption_blkrem, hq]; omega
    decBound := nofun }

/-- A block of an open stream, while more than one is left, is counted down within the bounds on
BLKREM. -/
theorem DataInv.nextBlock {s t : State} (h : DataInv s) (hopen : s.mode ≠ .idle)
    (hr : s.blkrem ≠ 1#32) (hm : t.mode = s.mode) (hb : t.blkrem = s.blkrem - 1#32)
    (ht : t.tail = s.tail) (hk : SameRoundKeys s t) (ho : t.outlen.toNat ≤ 16) : DataInv t := by
  obtain ⟨hrk, hkeyv⟩ := hk
  obtain ⟨h1, hkey⟩ := h.streamIsOpen hopen
  have hcount : 1 ≤ (s.blkrem - 1#32).toNat ∧ (s.blkrem - 1#32).toNat ≤ s.blkrem.toNat := by bv_omega
  exact {
    idleIsClosed := fun hi => absurd (hm ▸ hi) hopen
    streamIsOpen := fun _ => ⟨hb ▸ hcount.1, hkeyv ▸ hkey⟩
    decHasNoTail := by rw [hm, ht]; exact h.decHasNoTail
    noKeyNoWords := by rw [hrk, hkeyv]; exact h.noKeyNoWords
    outlenBound := ho
    encBound := by rw [hm, hb]; exact fun he => hcount.2.trans (h.encBound he)
    decBound := by rw [hm, hb]; exact fun hd => hcount.2.trans (h.decBound hd) }

/-- Every command keeps the clauses about the stream, the keys and OUTLEN (10_state.md R47). -/
theorem Ends.dataInv {i : Instr} {s t : State} (h : Ends s i t) (hs : DataInv s) : DataInv t := by
  cases h with
  | nothing => exact { hs with }
  | closes => exact hs.close rfl rfl rfl ⟨rfl, rfl⟩ hs.outlenBound
  | output b n hn => exact { hs with outlenBound := hn }
  | expands len hm => exact { hs with streamIsOpen := fun h => absurd hm h, noKeyNoWords := nofun }
  | opensEnc gen hm hk u hu =>
    have hu : DataInv u ∧ u.keyv = true := by
      obtain rfl | ⟨v, rfl⟩ := hu
      · exact ⟨hs, hk⟩
      · exact ⟨{ hs with }, hk⟩
    exact { hu.1.openEncryption hu.2 with }
  | encryptsFinal hm hr c => exact hs.close rfl rfl rfl ⟨rfl, rfl⟩ (Nat.le_refl 16)
  | encryptsNext hm hr c =>
    exact hs.nextBlock (by simp [hm]) hr rfl rfl rfl ⟨rfl, rfl⟩ (Nat.le_refl 16)
  | opensDec hm hk hl hd =>
    have hlt := s.msglen.isLt
    have hq : (s.msglen / 16#32).toNat = s.msglen.toNat / 16 := BitVec.toNat_udiv
    have hmod : s.msglen.toNat % 16 = 0 := by simpa using congrArg BitVec.toNat hd
    have hne : s.msglen.toNat ≠ 0 := by bv_omega
    exact { hs with
      idleIsClosed := nofun
      streamIsOpen := fun _ => ⟨by simp [hq]; omega, hk⟩
      decHasNoTail := fun _ => (hs.idleIsClosed hm).2
      encBound := nofun
      decBound := fun _ => by simp [hq]; omega }
  | decryptsFinal hm hr p n hn =>
    exact hs.close rfl rfl (hs.decHasNoTail hm) ⟨rfl, rfl⟩ hn
  | decryptsNext hm hr p =>
    exact hs.nextBlock (by simp [hm]) hr rfl rfl rfl ⟨rfl, rfl⟩ (Nat.le_refl 16)
  | errs e he u hu =>
    obtain rfl | ⟨-, rfl⟩ := hu
    · exact hs.raise e
    · exact (show DataInv (afterDraw s) from { hs with }).raise e

/-- The errors a command raises are named ones, so it never leaves the reserved code
(60_exceptions.md R262), and ERR and ERRCODE stay in step (10_state.md R47 item 7). -/
theorem exec_keeps_errorCode {i : Instr} {s t : State} (h : exec i s = .next t)
    (he : s.err = false ↔ s.errcode = none) (hn : s.errcode ≠ some .truncatedInput) :
    (t.err = false ↔ t.errcode = none) ∧ t.errcode ≠ some .truncatedInput := by
  cases ends_of_exec h with
  | errs e hraise u hu =>
    refine ⟨by simp, ?_⟩
    rintro ⟨⟩
    exact hraise
  | opensEnc gen hm hk u hu => obtain rfl | ⟨v, rfl⟩ := hu <;> exact ⟨he, hn⟩
  | nothing | closes | output | expands | encryptsFinal | encryptsNext | opensDec | decryptsFinal
  | decryptsNext => exact ⟨he, hn⟩

/-- Every command completes in every state (10_state.md R49). -/
theorem exec_completes (i : Instr) (s : State) : ∃ t, exec i s = .next t ∧ Completed t := by
  obtain ⟨u, hu, -⟩ | ⟨e, u, hu, -⟩ := exec_cases i s
  · exact ⟨complete u, hu, completed_complete u⟩
  · exact ⟨raise e u, hu, completed_raise e u⟩

/-! ## The cases of a host transaction -/

/-- What a host write can do, running command or not (20_memory.md R66). -/
theorem hostWrite_cases (off : BitVec 8) (v : Word) (s : State) :
    hostWrite off v s = s ∨ hostWrite off v s = writeStatus v s
      ∨ hostWrite off v s = { s with ctrl := ctrlOf v } ∨ hostWrite off v s = rejectWrite s
      ∨ (s.busy = false ∧ s.err = false ∧ hostWrite off v s = issue v s)
      ∨ (s.busy = false ∧ ∃ r, hostWrite off v s = replaceReg r v s) := by
  unfold hostWrite
  split
  · next r _ =>
    unfold writeReg
    split_ifs with hstatus hctrl hread hbusy hcmd herr
    · exact .inr (.inl rfl)
    · exact .inr (.inr (.inl rfl))
    · exact .inl rfl
    · exact .inr (.inr (.inr (.inl rfl)))
    · exact .inr (.inr (.inr (.inl rfl)))
    · exact .inr (.inr (.inr (.inr (.inl ⟨by simpa using hbusy, by simpa using herr, rfl⟩))))
    · exact .inr (.inr (.inr (.inr (.inr ⟨by simpa using hbusy, r, rfl⟩))))
  · exact .inl rfl

/-- A cycle's host transaction sets the bus's response and does no more than one host write. -/
theorem hostPhase_cases (a : Option Access) (s : State) :
    ∃ resp, hostPhase a s = { s with resp := resp }
      ∨ ∃ off v, hostPhase a s = { hostWrite off v s with resp := resp } := by
  cases a with
  | none => exact ⟨_, .inl rfl⟩
  | some a =>
    unfold hostPhase
    dsimp only
    split
    · split
      · exact ⟨_, .inl rfl⟩
      · exact ⟨_, .inr ⟨_, _, rfl⟩⟩
    · exact ⟨_, .inl rfl⟩

/-- A register of the host is replaced with no other register touched. -/
theorem replaceReg_eq (r : Reg) (v : Word) (s : State) :
    ∃ m k i d, replaceReg r v s = { s with msglen := m, key := k, iv := i, din := d } := by
  cases r <;> exact ⟨_, _, _, _, rfl⟩

/-- Writing 1 clears the flag, and writing 0 leaves it (10_state.md R21). -/
theorem clearedBy_of_set {v : Word} {k : Nat} (h : v.getLsbD k = true) (flag : Bool) :
    clearedBy v k flag = false := by
  rw [clearedBy, h, Bool.not_true, Bool.and_false]

theorem clearedBy_of_clear {v : Word} {k : Nat} (h : v.getLsbD k = false) (flag : Bool) :
    clearedBy v k flag = flag := by
  rw [clearedBy, h, Bool.not_false, Bool.and_true]

@[simp] theorem clearedBy_false (v : Word) (k : Nat) : clearedBy v k false = false := rfl

/-- A STATUS write: the rule on DONE, ERR and REJECT, and ERRCODE cleared along with ERR
(10_state.md R25, R28). -/
theorem writeStatus_eq (v : Word) (s : State) :
    writeStatus v s = { s with
      done := clearedBy v 1 s.done
      reject := clearedBy v 3 s.reject
      err := clearedBy v 2 s.err
      errcode := if v.getLsbD 2 then none else s.errcode } := by
  unfold writeStatus clearError
  cases hv : v.getLsbD 2 with
  | false => rw [clearedBy_of_clear hv]; rfl
  | true => rw [clearedBy_of_set hv]; rfl

/-- A host write reaches neither RK nor KEYV (10_state.md R30, R43). -/
theorem hostWrite_sameRoundKeys (off : BitVec 8) (v : Word) (s : State) :
    SameRoundKeys s (hostWrite off v s) := by
  obtain h | h | h | h | ⟨-, -, h⟩ | ⟨-, r, h⟩ := hostWrite_cases off v s <;> rw [h]
  case inr.inl => exact writeStatus_eq v s ▸ ⟨rfl, rfl⟩
  case inr.inr.inr.inr.inr =>
    obtain ⟨m, k, i, d, hr⟩ := replaceReg_eq r v s
    exact hr ▸ ⟨rfl, rfl⟩
  all_goals exact ⟨rfl, rfl⟩

theorem hostPhase_sameRoundKeys (a : Option Access) (s : State) :
    SameRoundKeys s (hostPhase a s) := by
  obtain ⟨resp, h | ⟨off, v, h⟩⟩ := hostPhase_cases a s
  · rw [h]
    exact ⟨rfl, rfl⟩
  · rw [h]
    exact hostWrite_sameRoundKeys off v s

section Busy
variable {s : State} (h : s.busy = true) (a : Option Access)
include h

/-- A host transaction neither stops a running command nor starts another. -/
theorem hostPhase_keeps_busy : (hostPhase a s).busy = true := by
  obtain ⟨c, d, e, r, x, y, hp⟩ := hostPhase_busy h a
  rw [hp, h]

theorem hostPhase_keeps_pending : (hostPhase a s).pending = s.pending := by
  obtain ⟨c, d, e, r, x, y, hp⟩ := hostPhase_busy h a
  rw [hp]

theorem hostPhase_keeps_latLeft : (hostPhase a s).latLeft = s.latLeft := by
  obtain ⟨c, d, e, r, x, y, hp⟩ := hostPhase_busy h a
  rw [hp]

end Busy

/-! ## One cycle, by what happens in it -/

section Cycle
variable {s : State} (hc : s.errcode ≠ some .truncatedInput)
include hc

theorem step_of_reset (hr : (cycleInput s).reset = true) :
    step s = .next (resetEvent (popInput s)) := by
  simp [step, clockCycle, hc, hr]

theorem step_of_idle (hr : (cycleInput s).reset = false) (hb : s.busy = false) :
    step s = .next (hostPhase (cycleInput s).access (popInput s)) := by
  simp [step, clockCycle, sequencerPhase, hc, hr, hb]

theorem step_of_counting (hr : (cycleInput s).reset = false) (hb : s.busy = true)
    (hl : 1 < s.latLeft) :
    step s = .next { hostPhase (cycleInput s).access (popInput s) with latLeft := s.latLeft - 1 } := by
  have hlat := hostPhase_keeps_latLeft (s := popInput s) hb (cycleInput s).access
  simp [step, clockCycle, sequencerPhase, hc, hr, hb, hlat, Nat.not_le.mpr hl]

theorem step_of_due (hr : (cycleInput s).reset = false) (hb : s.busy = true) (hl : s.latLeft ≤ 1) :
    step s = runPending (hostPhase (cycleInput s).access (popInput s)) := by
  have hlat := hostPhase_keeps_latLeft (s := popInput s) hb (cycleInput s).access
  simp [step, clockCycle, sequencerPhase, hc, hr, hb, hlat, hl]

end Cycle

/-- A pending word always completes (10_state.md R49, 30_encoding.md R86). -/
theorem runPending_completes {s : State} {w : Word} (h : s.pending = some w) :
    ∃ t, runPending s = .next t ∧ Completed t := by
  obtain ⟨i, -, hi⟩ | ⟨why, -, hf⟩ := runPending_cases h
  · rw [hi]
    exact exec_completes i s
  · exact ⟨_, hf, completed_raise _ _⟩

/-! ## The invariant -/

theorem inv_resetEvent (s : State) : Inv (resetEvent s) where
  idleIsClosed _ := ⟨rfl, rfl⟩
  streamIsOpen h := absurd rfl h
  decHasNoTail _ := rfl
  busyIsClean := nofun
  restIsEmpty _ := rfl
  errHasCode := ⟨fun _ => rfl, fun _ => rfl⟩
  noKeyNoWords _ := rfl
  outlenBound := Nat.zero_le 16
  encBound := nofun
  decBound := nofun
  neverTruncated := nofun
  countIsLive := rfl

/-- Every command takes at least one cycle (70_reset_and_hazards.md R320). -/
theorem one_le_commandLatency (w : Word) (draws : Nat) : 1 ≤ commandLatency w draws := by
  unfold commandLatency Config.latency
  split <;> omega

theorem Inv.popInput {s : State} (h : Inv s) : Inv (popInput s) := { h with }

theorem Inv.writeStatus {s : State} (h : Inv s) (v : Word) : Inv (writeStatus v s) := by
  rw [writeStatus_eq]
  exact { h with
    busyIsClean := fun hb => by
      obtain ⟨herr, hdone, hpend⟩ := h.busyIsClean hb
      simp [herr, hdone, hpend]
    errHasCode := by
      cases hv : v.getLsbD 2 with
      | false => rw [clearedBy_of_clear hv]; exact h.errHasCode
      | true => rw [clearedBy_of_set hv]; exact ⟨fun _ => rfl, fun _ => rfl⟩
    neverTruncated := by
      cases v.getLsbD 2 with
      | false => exact h.neverTruncated
      | true => nofun }

/-- An accepted command runs with BUSY set, DONE and ERR clear and at least one cycle to go
(10_state.md R47 item 5, R48, 70_reset_and_hazards.md R320). -/
theorem Inv.issue {s : State} (h : Inv s) (herr : s.err = false) (v : Word) : Inv (issue v s) :=
  { h with
    busyIsClean := fun _ => ⟨herr, rfl, rfl⟩
    restIsEmpty := nofun
    countIsLive := one_le_commandLatency v s.rngDraws }

theorem Inv.hostWrite {s : State} (h : Inv s) (off : BitVec 8) (v : Word) :
    Inv (hostWrite off v s) := by
  obtain hw | hw | hw | hw | ⟨-, herr, hw⟩ | ⟨-, r, hw⟩ := hostWrite_cases off v s <;> rw [hw]
  · exact h
  · exact h.writeStatus v
  · exact { h with }
  · exact { h with }
  · exact h.issue herr v
  · obtain ⟨m, k, i, d, hr⟩ := replaceReg_eq r v s
    exact hr ▸ { h with }

theorem Inv.hostPhase {s : State} (h : Inv s) (a : Option Access) : Inv (hostPhase a s) := by
  obtain ⟨resp, hp | ⟨off, v, hp⟩⟩ := hostPhase_cases a s
  · rw [hp]
    exact { h with }
  · rw [hp]
    exact { h.hostWrite off v with }

/-- A cycle of a running command that is not its last keeps the invariant. -/
theorem Inv.countDown {s : State} (h : Inv s) (hb : s.busy = true) {n : Nat} (hn : 1 ≤ n) :
    Inv { s with latLeft := n } :=
  { h with countIsLive := by rw [if_pos hb]; exact hn }

/-- A command keeps the invariant, from any state that meets it. -/
theorem Inv.exec {i : Instr} {s t : State} (h : Inv s) (hx : exec i s = .next t) : Inv t := by
  obtain ⟨u, hu, hcomp⟩ := exec_completes i s
  obtain rfl : u = t := by rw [hu] at hx; injection hx
  obtain ⟨herr, hcode⟩ := exec_keeps_errorCode hx h.errHasCode h.neverTruncated
  exact inv_of_completed hcomp ((ends_of_exec hx).dataInv h.dataInv) herr hcode

/-- A named error keeps the invariant. -/
theorem Inv.raise {s : State} (h : Inv s) {e : ErrorCode} (he : e ≠ .truncatedInput) :
    Inv (raise e s) :=
  inv_of_completed (completed_raise e s) (h.dataInv.raise e) (by simp) (by simpa using he)

theorem Inv.runPending {s t : State} (h : Inv s) (hb : s.busy = true)
    (hx : runPending s = .next t) : Inv t := by
  obtain ⟨-, -, hpend⟩ := h.busyIsClean hb
  obtain ⟨w, hw⟩ := Option.isSome_iff_exists.mp hpend
  obtain ⟨i, -, hi⟩ | ⟨why, -, hf⟩ := runPending_cases hw
  · exact h.exec (hi ▸ hx)
  · rw [hf] at hx
    injection hx with hx
    exact hx ▸ h.raise (by decide)

/-- Settles O13: by the cases of a clock cycle. Reset leaves the reset state, a host transaction and the
count keep the invariant, and so does every completion. -/
theorem everyStepKeepsTheInvariant : Obligations.EveryStepKeepsTheInvariant := by
  intro s t h hs
  have hphase : Inv (hostPhase (cycleInput s).access (popInput s)) :=
    h.popInput.hostPhase _
  obtain ⟨-, rfl⟩ | ⟨-, -, rfl⟩ | ⟨-, hb, hl, rfl⟩ | ⟨-, hb, -, hr⟩ := step_cases hs
  · exact inv_resetEvent _
  · exact hphase
  · exact hphase.countDown (hostPhase_keeps_busy (s := popInput s) hb _) (by omega)
  · exact hphase.runPending (hostPhase_keeps_busy (s := popInput s) hb _) hr

/-- Every state that a run from reset reaches meets the invariant. -/
theorem inv_of_reachable {s : State} (h : Reachable s) : Inv s := by
  induction h with
  | reset inputs port =>
    exact { inv_resetEvent State.reset with }
  | step _ hs ih => exact everyStepKeepsTheInvariant _ _ ih hs

/-- The code of every named error is nonzero, so ERRCODE reads 0 exactly when there is none
(60_exceptions.md R260). -/
theorem errcodeWord_eq_zero (c : Option ErrorCode) : errcodeWord c = 0#32 ↔ c = none := by
  cases c with
  | none => simp [errcodeWord]
  | some e => cases e <;> simp [errcodeWord, ErrorCode.code]

@[simp] theorem outlenWord_toNat (n : BitVec 5) : (outlenWord n).toNat = n.toNat := by
  rw [outlenWord, BitVec.toNat_append]
  simp

/-- Settles O14: the items are clauses of the invariant, read in the registers. -/
theorem invariantsHoldInEveryReachableState : Obligations.InvariantsHoldInEveryReachableState := by
  intro s hs
  have h := inv_of_reachable hs
  refine ⟨by cases s.mode <;> simp, h.idleIsClosed, h.streamIsOpen, h.decHasNoTail, fun hb => ?_,
    h.restIsEmpty, ?_, fun hk n => ?_, ?_⟩
  · obtain ⟨herr, hdone, hpend⟩ := h.busyIsClean hb
    exact ⟨herr, hdone, Option.isSome_iff_ne_none.mp hpend⟩
  · rw [errcodeWord_eq_zero]
    exact h.errHasCode
  · rw [h.noKeyNoWords hk]
    rw [Vector.toList_replicate, List.getD_eq_getElem?_getD, List.getElem?_replicate]
    split_ifs <;> rfl
  · rw [outlenWord_toNat]
    exact h.outlenBound

/-- Settles O15: the invariant shuts out the reserved error code, and gives the completing cycle a pending
word, which always completes. -/
theorem invariantStatesNeverStop : Obligations.InvariantStatesNeverStop := by
  intro s h
  have hc := h.neverTruncated
  cases hr : (cycleInput s).reset with
  | true => exact ⟨_, step_of_reset hc hr⟩
  | false =>
    cases hb : s.busy with
    | false => exact ⟨_, step_of_idle hc hr hb⟩
    | true =>
      obtain hl | hl := Nat.lt_or_ge 1 s.latLeft
      · exact ⟨_, step_of_counting hc hr hb hl⟩
      · obtain ⟨-, -, hpend⟩ := h.busyIsClean hb
        obtain ⟨w, hw⟩ := Option.isSome_iff_exists.mp hpend
        have hw' := (hostPhase_keeps_pending (s := popInput s) hb (cycleInput s).access).trans hw
        obtain ⟨t, ht, -⟩ := runPending_completes hw'
        exact ⟨t, (step_of_due hc hr hb hl).trans ht⟩

/-! ## Commands: completion, frames, and the round keys -/

/-- Settles O52. -/
theorem everyCommandCompletes : Obligations.EveryCommandCompletes := exec_completes

/-- Settles O56: a command that ends without an error keeps the host's registers by `exec_cases`, and an
error is raised on the state as it was but for the RNG port. -/
theorem commandsNeverWriteHostRegisters : Obligations.CommandsNeverWriteHostRegisters := by
  intro i s t h
  obtain ⟨u, hu, hregs, -, hiv, -⟩ | ⟨e, u, hu, hsame⟩ := exec_cases i s
  · rw [hu] at h
    injection h with h
    exact h ▸ ⟨hregs, hiv⟩
  · rw [hu] at h
    injection h with h
    subst h
    obtain rfl | ⟨-, rfl⟩ := hsame <;> exact ⟨⟨rfl, rfl, rfl, rfl, rfl⟩, fun _ => rfl⟩

/-- A completion that changes the round keys was a KEYEXP's. -/
theorem runPending_roundKeys {s t : State} (h : runPending s = .next t) (hk : ¬ SameRoundKeys s t) :
    t.busy = false ∧ t.keyv = true ∧ ∃ w len, s.pending = some w ∧ decode w = .ok (.keyexp len) := by
  cases hw : s.pending with
  | none => simp [runPending, hw] at h
  | some w =>
    obtain ⟨u, hu, hcomp⟩ := runPending_completes hw
    obtain rfl : u = t := by rw [hu] at h; injection h
    obtain ⟨i, hd, hi⟩ | ⟨why, -, hf⟩ := runPending_cases hw
    · obtain hsame | ⟨⟨len, rfl⟩, hkeyv⟩ := (ends_of_exec (hi ▸ h)).roundKeys
      · exact absurd hsame hk
      · exact ⟨hcomp.1, hkeyv, w, len, rfl, hd⟩
    · rw [hf] at h
      injection h with h
      exact absurd (h ▸ ⟨rfl, rfl⟩) hk

/-- Settles O57: a host transaction keeps RK and KEYV, so a cycle that changes them is a reset or a
completion. -/
theorem onlyKeyexpAndResetWriteRoundKeys : Obligations.OnlyKeyexpAndResetWriteRoundKeys := by
  intro s t hs hk
  have hphase : SameRoundKeys s (hostPhase (cycleInput s).access (popInput s)) :=
    hostPhase_sameRoundKeys _ (popInput s)
  obtain ⟨hr, -⟩ | ⟨-, -, rfl⟩ | ⟨-, -, -, rfl⟩ | ⟨-, hb, -, hrun⟩ := step_cases hs
  · exact .inl hr
  · exact absurd hphase hk
  · exact absurd hphase hk
  · have hk' : ¬ SameRoundKeys (hostPhase (cycleInput s).access (popInput s)) t := fun h =>
      hk ⟨h.1.trans hphase.1, h.2.trans hphase.2⟩
    obtain ⟨hbusy, hkeyv, w, len, hw, hd⟩ := runPending_roundKeys hrun hk'
    have hpend := hostPhase_keeps_pending (s := popInput s) hb (cycleInput s).access
    exact .inr ⟨hb, hbusy, hkeyv, w, len, hpend.symm.trans hw, hd⟩

/-! ## The step that runs a command -/

/-- Settles O6. -/
theorem stepRunsThePendingCommand : Obligations.StepRunsThePendingCommand := by
  intro s w hc hr hb hl hw
  have hw' := (hostPhase_keeps_pending (s := popInput s) hb (cycleInput s).access).trans hw
  rw [step_of_due hc hr hb hl]
  refine ⟨fun i hi => by simp [runPending, hw', hi], fun why hwhy => ?_⟩
  have hrun : runPending (hostPhase (cycleInput s).access (popInput s))
      = fail .illegalCommand (hostPhase (cycleInput s).access (popInput s)) := by
    simp [runPending, hw', hwhy]
  rw [hrun]
  exact fail_takesError _ _

/-- Settles O7: the placed word is due in a quiet cycle, so it runs by `StepRunsThePendingCommand`. -/
theorem placedWordRunsAtTheNextStep : Obligations.PlacedWordRunsAtTheNextStep := by
  intro s w i hw hi
  have hplaced : s.withFetchWord 32 w = loadPending (BitVec.ofNat 32 w) s := by
    rw [State.withFetchWord, Nat.mod_eq_of_lt hw]
  rw [hplaced]
  exact (stepRunsThePendingCommand (loadPending (BitVec.ofNat 32 w) s) _ nofun rfl rfl (Nat.le_refl 1)
    rfl).1 i hi

/-! ## Host registers -/

/-- Settles O20: the CMD write by its two conditions, in the order of 20_memory.md R66. -/
theorem acceptedCommandIsIssued : Obligations.AcceptedCommandIsIssued := by
  intro s v
  have hcmd : hostWrite 0x14#8 v s
      = if s.busy then rejectWrite s else if s.err then rejectWrite s else issue v s :=
    hostWrite_offset .cmd v s
  refine ⟨fun hb he => ⟨commandLatency v s.rngDraws, ?_⟩, ?_⟩
  · rw [hcmd, if_neg (by simp [hb]), if_neg (by simp [he])]
    rfl
  · rintro (hb | he)
    · rw [hcmd, if_pos hb]
      rfl
    · rw [hcmd, if_pos he, ite_self]
      rfl

@[simp] theorem getLsbD_bit (b : Bool) (k : Nat) : (bit b).getLsbD k = (decide (k = 0) && b) := by
  cases b <;> cases k <;> simp [bit]

/-- The bits of a word that ends in a one-bit field. -/
theorem getLsbD_append_bit {n : Nat} (x : BitVec n) (b : Bool) (k : Nat) :
    (x ++ bit b).getLsbD k = if k = 0 then b else x.getLsbD (k - 1) := by
  rw [BitVec.getLsbD_append, getLsbD_bit]
  cases k <;> simp

/-- The bits of STATUS above its five flags: MODE, a reserved bit, TAIL and the reserved bits. -/
theorem getLsbD_modeAndTail (tail : BitVec 4) (mode : BitVec 2) (k : Nat) :
    (0#20 ++ tail ++ 0#1 ++ mode).getLsbD k
      = if k < 2 then mode.getLsbD k else if k = 2 then false
        else if k < 7 then tail.getLsbD (k - 3) else false := by
  simp only [BitVec.getLsbD_append, BitVec.getLsbD_zero, Nat.sub_sub]
  grind

/-- Five flags below a field, bit by bit. -/
theorem getLsbD_append_flags {n : Nat} (x : BitVec n) (b4 b3 b2 b1 b0 : Bool) (k : Nat) :
    (x ++ bit b4 ++ bit b3 ++ bit b2 ++ bit b1 ++ bit b0).getLsbD k
      = if k = 0 then b0 else if k = 1 then b1 else if k = 2 then b2 else if k = 3 then b3
        else if k = 4 then b4 else x.getLsbD (k - 5) := by
  match k with
  | 0 | 1 | 2 | 3 | 4 | k + 5 => simp only [getLsbD_append_bit]; rfl

/-- STATUS bit by bit (10_state.md R25). -/
theorem getLsbD_statusWord (s : State) (k : Nat) :
    (statusWord s).getLsbD k
      = if k = 0 then s.busy else if k = 1 then s.done else if k = 2 then s.err
        else if k = 3 then s.reject else if k = 4 then s.keyv
        else (0#20 ++ s.tail ++ 0#1 ++ s.mode.code).getLsbD (k - 5) :=
  getLsbD_append_flags _ _ _ _ _ _ k

theorem statusWord_mode (s : State) : (statusWord s).extractLsb' 5 2 = s.mode.code := by
  apply BitVec.eq_of_getLsbD_eq
  intro k hk
  rw [BitVec.getLsbD_extractLsb', getLsbD_statusWord, getLsbD_modeAndTail]
  interval_cases k <;> simp

theorem statusWord_tail (s : State) : (statusWord s).extractLsb' 8 4 = s.tail := by
  apply BitVec.eq_of_getLsbD_eq
  intro k hk
  rw [BitVec.getLsbD_extractLsb', getLsbD_statusWord, getLsbD_modeAndTail]
  interval_cases k <;> simp

theorem statusWord_reserved (s : State) : (statusWord s).extractLsb' 12 20 = 0#20 := by
  apply BitVec.eq_of_getLsbD_eq
  intro k hk
  rw [BitVec.getLsbD_extractLsb', getLsbD_statusWord, getLsbD_modeAndTail]
  grind

/-- The write-one-to-clear rule in the bits of STATUS: bits 1, 2 and 3, and no other
(10_state.md R25). -/
theorem getLsbD_statusWord_writeStatus (v : Word) (s : State) (k : Nat) :
    (statusWord (writeStatus v s)).getLsbD k
      = ((statusWord s).getLsbD k && !((k == 1 || k == 2 || k == 3) && v.getLsbD k)) := by
  rw [writeStatus_eq, getLsbD_statusWord, getLsbD_statusWord]
  by_cases h : k = 1 ∨ k = 2 ∨ k = 3
  · obtain rfl | rfl | rfl := h <;> simp [clearedBy]
  · obtain ⟨h1, h2, h3⟩ : k ≠ 1 ∧ k ≠ 2 ∧ k ≠ 3 := by simpa only [not_or] using h
    simp [h1, h2, h3]

/-- Settles O21: STATUS bit by bit, before and after the write. -/
theorem statusWordShowsTheFlags : Obligations.StatusWordShowsTheFlags := by
  refine ⟨by decide, fun s v => ?_⟩
  have hwrite : hostWrite 0x0C#8 v s = writeStatus v s := hostWrite_offset .status v s
  rw [hwrite]
  refine ⟨getLsbD_statusWord s 0, getLsbD_statusWord s 1, getLsbD_statusWord s 2,
    getLsbD_statusWord s 3, getLsbD_statusWord s 4, (statusWord_mode s).trans ?_,
    (getLsbD_statusWord s 7).trans (getLsbD_modeAndTail s.tail s.mode.code 2), statusWord_tail s, statusWord_reserved s,
    fun k _ => getLsbD_statusWord_writeStatus v s k, ?_⟩
  · cases s.mode <;> rfl
  · rw [writeStatus_eq]

/-- Settles O23: no register's read value and no term of irq mentions KEY or RK. -/
theorem keyMaterialIsUnreadable : Obligations.KeyMaterialIsUnreadable := by
  intro s k rk off
  refine ⟨?_, rfl⟩
  unfold hostRead
  cases regAt off with
  | none => rfl
  | some r => cases r <;> rfl

end Sys2Proof.Machine

/-!
# Host accesses (20_memory.md)

Which register an access reaches, what a write does to each class of register, and the values that reads
return as numbers; from them the statements about the register window.
-/

namespace Sys2Proof.Machine

/-! ## The register an offset reaches -/

theorem mem_all (r : Reg) : r ∈ Reg.all := List.mem_of_find?_eq_some (regAt_offset r)

/-- No register stands in the two unmapped ranges of the window (10_state.md R20). -/
theorem offset_mapped (r : Reg) :
    r.offset.toNat < 0x24 ∨ (0x40 ≤ r.offset.toNat ∧ r.offset.toNat < 0xA0) :=
  (by decide : ∀ r ∈ Reg.all, r.offset.toNat < 0x24 ∨ (0x40 ≤ r.offset.toNat ∧ r.offset.toNat < 0xA0))
    r (mem_all r)

theorem regAt_unmapped {off : BitVec 8} (h : (0x24 ≤ off.toNat ∧ off.toNat < 0x40) ∨ 0xA0 ≤ off.toNat) :
    regAt off = none := by
  refine Option.eq_none_iff_forall_ne_some.mpr fun r hr => ?_
  have hmap := offset_mapped r
  rw [offset_of_regAt hr] at hmap
  omega

/-- A read at an offset written out as a number. -/
theorem hostRead_at (r : Reg) {off : BitVec 8} (h : off = r.offset) (s : State) :
    hostRead s off = readReg s r := h ▸ hostRead_offset s r

/-- A write at an offset written out as a number. -/
theorem hostWrite_at (r : Reg) {off : BitVec 8} (h : off = r.offset) (v : Word) (s : State) :
    hostWrite off v s = writeReg r v s := h ▸ hostWrite_offset r v s

/-! ## What a write does to each class of register (20_memory.md R66) -/

/-- The operand registers, which a write replaces while no command runs (20_memory.md R66 item 6). -/
def Reg.operand : Reg → Bool
  | .msglen | .key _ | .iv _ | .din _ => true
  | .id | .version | .ctrl | .status | .errcode | .cmd | .blkrem | .outlen | .chain _ | .dout _ => false

theorem writeReg_readOnly {r : Reg} (h : r.readOnly = true) (v : Word) (s : State) :
    writeReg r v s = s := by
  have hstatus : r ≠ .status := by rintro rfl; cases h
  have hctrl : r ≠ .ctrl := by rintro rfl; cases h
  rw [writeReg, if_neg hstatus, if_neg hctrl, if_pos h]

theorem writeReg_operand {r : Reg} (h : r.operand = true) (v : Word) (s : State) :
    writeReg r v s = if s.busy then rejectWrite s else replaceReg r v s := by
  cases r with
  | msglen | key | iv | din => rfl
  | id | version | ctrl | status | errcode | cmd | blkrem | outlen | chain | dout => cases h

theorem writeReg_operand_busy {r : Reg} (h : r.operand = true) (v : Word) {s : State}
    (hb : s.busy = true) : writeReg r v s = rejectWrite s := by
  rw [writeReg_operand h, if_pos hb]

theorem writeReg_operand_idle {r : Reg} (h : r.operand = true) (v : Word) {s : State}
    (hb : s.busy = false) : writeReg r v s = replaceReg r v s := by
  rw [writeReg_operand h, if_neg (by simp [hb])]

/-- A write to an unmapped offset or to a read-only register has no effect. -/
theorem hostWrite_ignored {off : BitVec 8} (h : (regAt off).all Reg.readOnly = true) (v : Word)
    (s : State) : hostWrite off v s = s := by
  unfold hostWrite
  split
  · next r hr =>
    rw [hr] at h
    exact writeReg_readOnly h v s
  · rfl

/-! ## The words of a register group after a write -/

theorem word_setWord (b : Block) (v : Word) {k n : Nat} (hk : k < 4) (hn : n < 4) :
    (b.setWord k v).word n = if n = k then v else b.word n := by
  interval_cases k <;> interval_cases n <;> rfl

@[simp] theorem block_setWord_setWord (b : Block) (k : Nat) (v w : Word) :
    (b.setWord k v).setWord k w = b.setWord k w := by
  match k with
  | 0 | 1 | 2 | _ + 3 => rfl

/-- Replacing a key register, on the list of the eight. -/
theorem words_setWord (key : Key) (v : Word) {k : Nat} (hk : k < 8) :
    (key.setWord k v).words = key.words.set k v := by
  interval_cases k <;> rfl

theorem words_getD_setWord (key : Key) (v : Word) {k n : Nat} (hk : k < 8) :
    (key.setWord k v).words.getD n 0#32 = if n = k then v else key.words.getD n 0#32 := by
  have hlen : k < key.words.length := hk
  rw [words_setWord key v hk, List.getD_eq_getElem?_getD, List.getElem?_set]
  split_ifs with h1 h2 h2
  · rfl
  · exact absurd h1.symm h2
  · exact absurd h2.symm h1
  · rw [List.getD_eq_getElem?_getD]

@[simp] theorem key_setWord_setWord (key : Key) (k : Nat) (v w : Word) :
    (key.setWord k v).setWord k w = key.setWord k w := by
  match k with
  | 0 | 1 | 2 | 3 | 4 | 5 | 6 | _ + 7 => rfl

/-! ## Repeated writes (20_memory.md R69) -/

theorem clearedBy_clearedBy (v : Word) (k : Nat) (flag : Bool) :
    clearedBy v k (clearedBy v k flag) = clearedBy v k flag := by
  cases flag <;> simp [clearedBy]

theorem writeStatus_writeStatus (v : Word) (s : State) :
    writeStatus v (writeStatus v s) = writeStatus v s := by
  simp only [writeStatus_eq, clearedBy_clearedBy]
  split <;> rfl

theorem replaceReg_replaceReg (r : Reg) (v : Word) (s : State) :
    replaceReg r v (replaceReg r v s) = replaceReg r v s := by
  cases r <;> simp [replaceReg]

theorem replaceReg_busy (r : Reg) (v : Word) (s : State) : (replaceReg r v s).busy = s.busy := by
  obtain ⟨m, k, i, d, hr⟩ := replaceReg_eq r v s
  rw [hr]

theorem writeReg_operand_twice {r : Reg} (h : r.operand = true) (v : Word) (s : State) :
    writeReg r v (writeReg r v s) = writeReg r v s := by
  cases hb : s.busy with
  | true =>
    rw [writeReg_operand_busy h v hb]
    exact writeReg_operand_busy h v (s := rejectWrite s) hb
  | false =>
    rw [writeReg_operand_idle h v hb,
      writeReg_operand_idle h v ((replaceReg_busy r v s).trans hb), replaceReg_replaceReg]

theorem writeReg_twice {r : Reg} (h : r ≠ .cmd) (v : Word) (s : State) :
    writeReg r v (writeReg r v s) = writeReg r v s := by
  cases r with
  | status => exact writeStatus_writeStatus v s
  | ctrl => rfl
  | cmd => exact absurd rfl h
  | msglen | key | iv | din => exact writeReg_operand_twice rfl v s
  | id | version | errcode | blkrem | outlen | chain | dout => exact writeReg_readOnly rfl v _

/-! ## Register values as numbers -/

theorem toNat_append_eq_add {m n : Nat} (x : BitVec m) (y : BitVec n) :
    (x ++ y).toNat = 2 ^ n * x.toNat + y.toNat := by
  rw [BitVec.toNat_append, ← Nat.shiftLeft_add_eq_or_of_lt y.isLt, Nat.shiftLeft_eq, Nat.mul_comm]

@[simp] theorem toNat_bit (b : Bool) : (bit b).toNat = b.toNat := by cases b <;> rfl

theorem ctrlWord_toNat (c : Ctrl) : (ctrlWord c).toNat = c.doneie.toNat + 2 * c.errie.toNat := by
  simp only [ctrlWord, toNat_append_eq_add, toNat_bit, BitVec.toNat_ofNat]
  omega

theorem statusWord_toNat (s : State) :
    (statusWord s).toNat
      = s.busy.toNat + 2 * s.done.toNat + 4 * s.err.toNat + 8 * s.reject.toNat + 16 * s.keyv.toNat
        + 32 * s.mode.code.toNat + 256 * s.tail.toNat := by
  simp only [statusWord, toNat_append_eq_add, toNat_bit, BitVec.toNat_ofNat]
  omega

theorem errcodeWord_some_toNat (e : ErrorCode) : (errcodeWord (some e)).toNat = e.code.toNat := by
  simp only [errcodeWord, toNat_append_eq_add, BitVec.toNat_ofNat]
  omega

/-! ## The bus -/

theorem accepted_iff (a : Access) :
    a.accepted = true ↔ a.width = .bits32 ∧ a.off.toNat % 4 = 0 := by
  simp [Access.accepted]

/-- Settles O16: the register at each offset, read by `readReg`, and its word as a number. -/
theorem readsReturnTheRegisterAndChangeNothing : Obligations.ReadsReturnTheRegisterAndChangeNothing := by
  refine ⟨fun s off h => ?_, fun s => ?_⟩
  · rw [hostPhase, if_pos ((accepted_iff _).mpr ⟨rfl, h⟩)]
  have hctrl : hostRead s 0x08#8 = ctrlWord s.ctrl := hostRead_offset s .ctrl
  have hstatus : hostRead s 0x0C#8 = statusWord s := hostRead_offset s .status
  have herr : hostRead s 0x10#8 = errcodeWord s.errcode := hostRead_offset s .errcode
  have houtlen : hostRead s 0x20#8 = outlenWord s.outlen := hostRead_offset s .outlen
  rw [hctrl, hstatus, herr, houtlen]
  exact ⟨hostRead_offset s .id, hostRead_offset s .version, ctrlWord_toNat s.ctrl, statusWord_toNat s,
    fun e he => he ▸ errcodeWord_some_toNat e, (errcodeWord_eq_zero s.errcode).mpr,
    hostRead_offset s .cmd, hostRead_offset s .msglen, hostRead_offset s .blkrem,
    outlenWord_toNat s.outlen,
    fun k hk => hostRead_at (.key ⟨k, hk⟩) (BitVec.ofNat_add 0x40 (4 * k)) s,
    fun k hk => hostRead_at (.iv ⟨k, hk⟩) (BitVec.ofNat_add 0x60 (4 * k)) s,
    fun k hk => hostRead_at (.chain ⟨k, hk⟩) (BitVec.ofNat_add 0x70 (4 * k)) s,
    fun k hk => hostRead_at (.din ⟨k, hk⟩) (BitVec.ofNat_add 0x80 (4 * k)) s,
    fun k hk => hostRead_at (.dout ⟨k, hk⟩) (BitVec.ofNat_add 0x90 (4 * k)) s⟩

/-- Settles O17. -/
theorem refusedAccessesGetABusError : Obligations.RefusedAccessesGetABusError := by
  intro s a h
  have hrefused : ¬ a.accepted = true := by
    rw [accepted_iff, not_and_or]
    exact h
  rw [hostPhase, if_neg hrefused]

/-- Settles O24: inside the window the offset is below 256, so its byte is exact; no register stands at an
offset of the two gaps. -/
theorem windowAddressingAndUnmappedSlots : Obligations.WindowAddressingAndUnmappedSlots := by
  refine ⟨fun addr width kind => ⟨fun h => ⟨_, if_pos h, ?_, rfl, rfl⟩, fun h => if_neg (by omega)⟩,
    fun s off v h => ?_⟩
  · exact (BitVec.toNat_ofNat _ _).trans (Nat.mod_eq_of_lt (by omega))
  · have hnone := regAt_unmapped h
    exact ⟨by rw [hostRead, hnone], hostWrite_ignored (by rw [hnone]; rfl) v s⟩

/-- Settles O18: STATUS, CTRL and CMD by their own rules, and the other registers by their class. -/
theorem hostWritesFollowThePrecedence : Obligations.HostWritesFollowThePrecedence := by
  intro s v
  obtain ⟨hissue, hreject⟩ := acceptedCommandIsIssued s v
  refine ⟨?status, hostWrite_offset .ctrl v s, fun off hoff => hostWrite_ignored ?readOnly v s, ?busy,
    fun _ he => hreject (.inr he), hissue, fun hb => ?msglen, fun hb k hk => ?key, fun hb k hk => ?iv,
    fun hb k hk => ?din⟩
  case status => exact (hostWrite_offset .status v s).trans (writeStatus_eq v s)
  case readOnly =>
    revert off
    decide
  case busy =>
    rintro hb r (rfl | rfl | ⟨k, rfl⟩ | ⟨k, rfl⟩ | ⟨k, rfl⟩)
    · exact hreject (.inl hb)
    all_goals exact (hostWrite_offset _ v s).trans (writeReg_operand_busy rfl v hb)
  case msglen => exact (hostWrite_offset .msglen v s).trans (writeReg_operand_idle rfl v hb)
  case key =>
    have hwrite := hostWrite_at (.key ⟨k, hk⟩) (BitVec.ofNat_add 0x40 (4 * k)) v s
    exact ⟨_, hwrite.trans (writeReg_operand_idle rfl v hb), rfl,
      fun n _ => words_getD_setWord s.key v hk⟩
  case iv =>
    have hwrite := hostWrite_at (.iv ⟨k, hk⟩) (BitVec.ofNat_add 0x60 (4 * k)) v s
    exact ⟨_, hwrite.trans (writeReg_operand_idle rfl v hb), rfl,
      fun n hn => word_setWord s.iv v hk hn⟩
  case din =>
    have hwrite := hostWrite_at (.din ⟨k, hk⟩) (BitVec.ofNat_add 0x80 (4 * k)) v s
    exact ⟨_, hwrite.trans (writeReg_operand_idle rfl v hb), rfl,
      fun n hn => word_setWord s.din v hk hn⟩

/-- Settles O25: every register but CMD by `writeReg_twice`; a second write of an accepted command finds
BUSY = 1 and sets REJECT. -/
theorem repeatedWritesAreIdempotent : Obligations.RepeatedWritesAreIdempotent := by
  refine ⟨fun s off v hoff => ?_, fun s v h => ?_, State.reset, 0#32, fun h => ?_⟩
  · cases hr : regAt off with
    | none => exact hostWrite_ignored (by rw [hr]; rfl) v _
    | some r =>
      obtain rfl := offset_of_regAt hr
      have hcmd : r ≠ .cmd := by
        rintro rfl
        exact hoff rfl
      simp only [hostWrite_offset, writeReg_twice hcmd]
  · rw [(acceptedCommandIsIssued s v).2 h]
    exact (acceptedCommandIsIssued { s with reject := true } v).2 h
  · exact absurd (congrArg State.reject h) (by decide)

end Sys2Proof.Machine

/-!
# Command words (30_encoding.md)

What belonging to a row of the opcode map says of a word's four fields, and what a row's check lets through;
from them the decoder on a word of a row, the statements about the encoding, and the reserved words. The
statements of a host program, which issue such words, come last.
-/

namespace Sys2Proof

/-! ## The opcode map by fields (30_encoding.md R85) -/

/-- The bits of F1 that are 0 in every word of a row: none where F1 is an immediate, all but GEN for
CBCE_INIT, and all of them in the other rows (30_encoding.md R81, R85). -/
def Op.f1Fixed : Op → Byte
  | .gmul | .ginv | .sbox | .invsbox | .keyexp | .rcon | .encb | .decb | .pad => 0x00#8
  | .cbceInit => 0xFE#8
  | .nop | .abort | .rotword | .subword | .subbytes | .invsubbytes | .shiftrows | .invshiftrows
  | .mixcolumns | .invmixcolumns | .addrk | .unpad | .cbce | .cbcdInit | .cbcd => 0xFF#8

/-- The bits of F2 that are 0 in every word of a row: F2 is an immediate of GMUL alone
(30_encoding.md R81, R85). -/
def Op.f2Fixed (op : Op) : Byte := if op = .gmul then 0x00#8 else 0xFF#8

/-- The patterns and masks of the table, byte by byte. -/
theorem opcodeTable_fields : ∀ r ∈ opcodeTable,
    opField r.pattern = r.op.code ∧ f1Field r.pattern = 0#8 ∧ f2Field r.pattern = 0#8
      ∧ rsvField r.pattern = 0#8 ∧ opField r.mask = BitVec.allOnes 8 ∧ f1Field r.mask = r.op.f1Fixed
      ∧ f2Field r.mask = r.op.f2Fixed ∧ rsvField r.mask = BitVec.allOnes 8 := by
  decide

/-- A word belongs to a row when it has the row's OP, RSV = 0, and 0 in the fixed bits of F1 and F2. -/
theorem holds_iff_fields {r : Row} (hr : r ∈ opcodeTable) (w : Word) :
    r.holds w = true ↔
      opField w = r.op.code ∧ f1Field w &&& r.op.f1Fixed = 0#8 ∧ f2Field w &&& r.op.f2Fixed = 0#8
        ∧ rsvField w = 0#8 := by
  obtain ⟨hop, hf1, hf2, hrsv, mop, mf1, mf2, mrsv⟩ := opcodeTable_fields r hr
  rw [r.holds_iff, hop, hf1, hf2, hrsv, mop, mf1, mf2, mrsv, BitVec.and_allOnes, BitVec.and_allOnes]

theorem exists_row (op : Op) : ∃ r ∈ opcodeTable, r.op = op := by
  cases op <;> decide

/-- Every row has an OP of its own. -/
theorem row_eq_of_code {r q : Row} (hr : r ∈ opcodeTable) (hq : q ∈ opcodeTable)
    (h : r.op.code = q.op.code) : r = q := by
  have hnodup : (opcodeTable.map fun r => r.op.code).Nodup := by decide
  exact List.inj_on_of_nodup_map hnodup hr hq h

theorem row_eq_of_holds {w : Word} {r q : Row} (hr : r ∈ opcodeTable) (hq : q ∈ opcodeTable)
    (hrw : r.holds w = true) (hqw : q.holds w = true) : r = q := by
  obtain ⟨hrop, -⟩ := (holds_iff_fields hr w).mp hrw
  obtain ⟨hqop, -⟩ := (holds_iff_fields hq w).mp hqw
  exact row_eq_of_code hr hq (hrop.symm.trans hqop)

/-- Settles O4: the rows' OP bytes are distinct, and a word has one OP. -/
theorem opcodeRowsAreDisjoint : Obligations.OpcodeRowsAreDisjoint :=
  fun _ _ _ hr hq hrw hqw => row_eq_of_holds hr hq hrw hqw

/-! ## The decoder on a word of a row (30_encoding.md R86) -/

/-- The decoder on a word of a row: what is left is the row's field-value check. -/
theorem decode_of_holds {w : Word} {r : Row} (hr : r ∈ opcodeTable) (h : r.holds w = true) :
    decode w = assemble r.op (f1Field w) (f2Field w) := by
  obtain ⟨-, -, -, hrsv⟩ := (holds_iff_fields hr w).mp h
  have hfind : opcodeTable.find? (fun q => q.holds w) = some r := by
    obtain ⟨q, hq⟩ := Option.isSome_iff_exists.mp (List.find?_isSome.mpr
      (⟨r, hr, h⟩ : ∃ q ∈ opcodeTable, q.holds w = true))
    have hqw : q.holds w = true := List.find?_some (p := fun q : Row => q.holds w) hq
    rw [hq, row_eq_of_holds (List.mem_of_find?_eq_some hq) hr hqw h]
  rw [decode, if_neg (not_not.mpr hrsv), hfind]

theorem eq_zero_of_and_eq_zero {b : Byte} (h : b &&& 0xFF#8 = 0#8) : b = 0#8 :=
  BitVec.and_allOnes.symm.trans h

/-- A byte with its seven upper bits 0 is 0 or 1. -/
theorem eq_zero_or_one_of_and_eq_zero {b : Byte} (h : b &&& 0xFE#8 = 0#8) : b = 0#8 ∨ b = 1#8 := by
  revert b
  decide

/-- The immediates of a command leave 0 in the fixed bits of its row. -/
theorem immediates_fit (i : Instr) : i.f1 &&& i.op.f1Fixed = 0#8 ∧ i.f2 &&& i.op.f2Fixed = 0#8 := by
  cases i with
  | gmul => exact ⟨BitVec.and_zero, BitVec.and_zero⟩
  | ginv | sbox | invsbox | keyexp | rcon | encb | decb | pad =>
    exact ⟨BitVec.and_zero, BitVec.zero_and⟩
  | cbceInit gen => cases gen <;> decide
  | _ => decide

/-- A row's check passes the immediates of a well-formed command of the row. -/
theorem assemble_immediates {i : Instr} (h : i.wellFormed = true) :
    assemble i.op i.f1 i.f2 = .ok i := by
  cases i with
  | rcon j => exact if_pos (by simpa [Instr.wellFormed, Instr.f1] using h)
  | pad t => exact if_neg (by simpa [Instr.wellFormed, Instr.f1] using h)
  | cbceInit gen => cases gen <;> rfl
  | _ => rfl

/-- What a row's check lets through: a well-formed command of the row whose immediates are the fields. -/
theorem fields_of_assemble {op : Op} {f1 f2 : Byte} {i : Instr} (h : assemble op f1 f2 = .ok i)
    (h1 : f1 &&& op.f1Fixed = 0#8) (h2 : f2 &&& op.f2Fixed = 0#8) :
    i.wellFormed = true ∧ i.op = op ∧ i.f1 = f1 ∧ i.f2 = f2 := by
  cases op with
  | gmul =>
    cases h
    exact ⟨rfl, rfl, rfl, rfl⟩
  | ginv | sbox | invsbox | keyexp | encb | decb =>
    cases h
    exact ⟨rfl, rfl, rfl, (eq_zero_of_and_eq_zero h2).symm⟩
  | rcon =>
    obtain ⟨hj, hi⟩ := (ite_eq_iff.mp h).resolve_right (by simp)
    cases hi
    exact ⟨by simpa [Instr.wellFormed] using hj, rfl, rfl, (eq_zero_of_and_eq_zero h2).symm⟩
  | pad =>
    obtain ⟨ht, hi⟩ := (ite_eq_iff.mp h).resolve_left (by simp)
    cases hi
    exact ⟨by simpa [Instr.wellFormed] using ht, rfl, rfl, (eq_zero_of_and_eq_zero h2).symm⟩
  | cbceInit =>
    cases h
    refine ⟨rfl, rfl, ?_, (eq_zero_of_and_eq_zero h2).symm⟩
    obtain rfl | rfl := eq_zero_or_one_of_and_eq_zero h1 <;> rfl
  | nop | abort | rotword | subword | subbytes | invsubbytes | shiftrows | invshiftrows | mixcolumns
  | invmixcolumns | addrk | unpad | cbce | cbcdInit | cbcd =>
    cases h
    exact ⟨rfl, rfl, (eq_zero_of_and_eq_zero h1).symm, (eq_zero_of_and_eq_zero h2).symm⟩

/-- Settles O2: the word belongs to the command's row, and the row's check passes. -/
theorem encodedCommandDecodesToItself : Obligations.EncodedCommandDecodesToItself := by
  intro i hi
  obtain ⟨r, hr, hop⟩ := exists_row i.op
  obtain ⟨hf1, hf2⟩ := immediates_fit i
  have hholds : r.holds (encode i) = true := by
    rw [holds_iff_fields hr, hop, encode, opField_enc, f1Field_enc, f2Field_enc, rsvField_enc]
    exact ⟨rfl, hf1, hf2, rfl⟩
  calc decode (encode i)
    _ = assemble r.op (f1Field (encode i)) (f2Field (encode i)) := decode_of_holds hr hholds
    _ = assemble i.op i.f1 i.f2 := by rw [hop, encode, f1Field_enc, f2Field_enc]
    _ = .ok i := assemble_immediates hi

/-! ## A word that decodes (30_encoding.md R85 to R88) -/

/-- The fields of a word that decodes are those of its command, and RSV is 0. -/
theorem fields_of_decode {w : Word} {i : Instr} (h : decode w = .ok i) :
    i.wellFormed = true ∧ opField w = i.op.code ∧ f1Field w = i.f1 ∧ f2Field w = i.f2
      ∧ rsvField w = 0#8 := by
  obtain ⟨hrsv, r, hr, hholds, hassemble⟩ := decode_ok h
  obtain ⟨hop, h1, h2, -⟩ := (holds_iff_fields hr w).mp hholds
  obtain ⟨hwf, hrow, hf1, hf2⟩ := fields_of_assemble hassemble h1 h2
  exact ⟨hwf, by rw [hop, hrow], hf1.symm, hf2.symm, hrsv⟩

/-- Settles O3: the word and the command's encoding have the same four fields. -/
theorem decodedWordIsTheEncodedCommand : Obligations.DecodedWordIsTheEncodedCommand := by
  intro w i h
  obtain ⟨hwf, hop, hf1, hf2, hrsv⟩ := fields_of_decode h
  refine ⟨hwf, ?_⟩
  calc encode i
    _ = enc (opField w) (f1Field w) (f2Field w) := by rw [encode, hop, hf1, hf2]
    _ = w := enc_fields hrsv

/-- Settles O1: each word is decoded as it stands. -/
theorem specWordsDecode : Obligations.SpecWordsDecode := by
  unfold Obligations.SpecWordsDecode
  decide

/-! ## Reserved words (30_encoding.md R87) -/

/-- The OP bytes that are not reserved (30_encoding.md R85). -/
theorem code_defined (op : Op) :
    op.code.toNat ≤ 0x01 ∨ (0x08 ≤ op.code.toNat ∧ op.code.toNat ≤ 0x0B)
      ∨ (0x10 ≤ op.code.toNat ∧ op.code.toNat ≤ 0x13) ∨ (0x20 ≤ op.code.toNat ∧ op.code.toNat ≤ 0x28)
      ∨ (0x30 ≤ op.code.toNat ∧ op.code.toNat ≤ 0x31)
      ∨ (0x40 ≤ op.code.toNat ∧ op.code.toNat ≤ 0x43) := by
  cases op <;> decide

/-- F2 is 0 in every command but GMUL. -/
theorem f2_eq_zero {i : Instr} (h : i.op.code ≠ 0x08#8) : i.f2 = 0#8 := by
  cases i with
  | gmul => exact absurd rfl h
  | _ => rfl

/-- F1 is 0 in every command that takes no immediate. -/
theorem f1_eq_zero {i : Instr}
    (h : i.op.code ∈ [0x00#8, 0x01#8, 0x11#8, 0x12#8, 0x22#8, 0x23#8, 0x24#8, 0x25#8, 0x26#8, 0x27#8,
      0x28#8, 0x31#8, 0x41#8, 0x42#8, 0x43#8]) : i.f1 = 0#8 := by
  cases i with
  | gmul | ginv | sbox | invsbox | keyexp | rcon | encb | decb | pad | cbceInit =>
    exact absurd h (by simp [Instr.op, Op.code])
  | _ => rfl

/-- F1 is 0 or 1 in CBCE_INIT. -/
theorem f1_eq_zero_or_one {i : Instr} (h : i.op.code = 0x40#8) : i.f1 = 0#8 ∨ i.f1 = 1#8 := by
  cases i with
  | cbceInit gen => cases gen <;> decide
  | _ => exact absurd h (by simp [Instr.op, Op.code])

/-- Settles O5: the fields of a word that decodes are those of a command, and no command has such fields. -/
theorem reservedWordsRaiseIllegalCommand : Obligations.ReservedWordsRaiseIllegalCommand := by
  refine ⟨fun w hw => ?_, fun w hw => (decodedWordIsTheEncodedCommand w .nop hw).2.symm⟩
  have hundecoded : ∀ i, decode w ≠ .ok i := by
    intro i hi
    obtain ⟨-, hop, hf1, hf2, hrsv⟩ := fields_of_decode hi
    rw [hop, hf1, hf2, hrsv] at hw
    have hcode := code_defined i.op
    rcases hw with h | h | h | h | h | h | h | ⟨hne, h⟩ | ⟨hne, h⟩ | ⟨hne0, hne1, h⟩
    iterate 6 omega
    · exact h rfl
    · exact hne (f2_eq_zero h)
    · exact hne (f1_eq_zero h)
    · exact (f1_eq_zero_or_one h).elim hne0 hne1
  refine ⟨?_, fun s hs => ?_⟩
  · cases hd : decode w with
    | ok i => exact absurd hd (hundecoded i)
    | error why => exact ⟨why, rfl⟩
  · obtain ⟨i, hi, -⟩ | ⟨why, -, hrun⟩ := Machine.runPending_cases hs
    · exact absurd hi (hundecoded i)
    · rw [hrun]
      exact Machine.fail_takesError .illegalCommand s

end Sys2Proof

namespace Sys2Proof.Machine

/-! ## Host programs (30_encoding.md R89, R90) -/

/-- A list of writes to operand registers of an idle core, each replacing its register. -/
theorem perform_operandWrites (writes : List (Reg × Word))
    (hop : (writes.all fun p => p.1.operand) = true) {s : State} (hb : s.busy = false) :
    perform (writes.map fun p => writeOf p.1 p.2) s
      = writes.foldl (fun t p => { replaceReg p.1 p.2 t with resp := some .ack }) s := by
  induction writes generalizing s with
  | nil => rfl
  | cons p ps ih =>
    obtain ⟨hp, hps⟩ := (Bool.and_eq_true _ _).mp hop
    have hwrite : hostPhase (some (writeOf p.1 p.2)) s
        = { replaceReg p.1 p.2 s with resp := some .ack } := by
      rw [hostPhase_writeOf, writeReg_operand_idle hp p.2 hb]
    have hidle : (hostPhase (some (writeOf p.1 p.2)) s).busy = false := by
      rw [hwrite]
      exact (replaceReg_busy p.1 p.2 s).trans hb
    rw [List.map_cons, List.foldl_cons, ← hwrite]
    exact ih hps hidle

/-- A write of STATUS: the write-one-to-clear rule and the bus's acknowledgement. -/
theorem perform_statusWrite (v : Word) (s : State) :
    perform [writeOf .status v] s
      = { s with
          done := clearedBy v 1 s.done
          reject := clearedBy v 3 s.reject
          err := clearedBy v 2 s.err
          errcode := if v.getLsbD 2 then none else s.errcode
          resp := some .ack } :=
  (hostPhase_writeOf .status v s).trans
    (congrArg (fun t : State => { t with resp := some .ack }) (writeStatus_eq v s))

/-- A write of CMD that is accepted issues the word. -/
theorem perform_cmdWrite_pending (v : Word) {s : State} (hb : s.busy = false) (he : s.err = false) :
    (perform [writeOf .cmd v] s).pending = some v := by
  obtain ⟨n, hissue⟩ := (acceptedCommandIsIssued s v).1 hb he
  have hwrite : writeReg .cmd v s = _ := (hostWrite_offset .cmd v s).symm.trans hissue
  calc (perform [writeOf .cmd v] s).pending
    _ = (writeReg .cmd v s).pending := by
      rw [perform, List.foldl_cons, List.foldl_nil, hostPhase_writeOf]
    _ = some v := by rw [hwrite]

/-- The words of mnemonics written without an operand (30_encoding.md R89). -/
theorem enc_defaultF1 : ∀ p ∈ [(Op.keyexp, 0x00002010#32), (Op.encb, 0x00001020#32),
    (Op.decb, 0x00001021#32), (Op.cbceInit, 0x00000040#32), (Op.cbcd, 0x00000043#32)],
    enc p.1.code (defaultF1 p.1) 0x00#8 = p.2 := by
  decide

/-- Settles O60: each statement by the accesses it expands to. -/
theorem hostStatementsAccessTheRegisters : Obligations.HostStatementsAccessTheRegisters := by
  intro s hb
  refine ⟨fun k => ?ldkey, fun b => ?ldiv, fun b => ?ldin, fun n => ?setlen, ?clrdone, ?clrerr, ?clrrej,
    ?rdout, fun he op w hw => ?mnem⟩
  case ldkey =>
    refine (perform_operandWrites [(.key 0, k.k0), (.key 1, k.k1), (.key 2, k.k2), (.key 3, k.k3),
      (.key 4, k.k4), (.key 5, k.k5), (.key 6, k.k6), (.key 7, k.k7)] rfl hb).trans ?_
    simp [replaceReg, Key.setWord]
  case ldiv =>
    refine (perform_operandWrites
      [(.iv 0, b.w0), (.iv 1, b.w1), (.iv 2, b.w2), (.iv 3, b.w3)] rfl hb).trans ?_
    simp [replaceReg, Block.setWord]
  case ldin =>
    refine (perform_operandWrites
      [(.din 0, b.w0), (.din 1, b.w1), (.din 2, b.w2), (.din 3, b.w3)] rfl hb).trans ?_
    simp [replaceReg, Block.setWord]
  case setlen => exact perform_operandWrites [(.msglen, n)] rfl hb
  case clrdone => exact (perform_statusWrite 0x2#32 s).trans (by simp [clearedBy])
  case clrerr => exact (perform_statusWrite 0x4#32 s).trans (by simp [clearedBy])
  case clrrej => exact (perform_statusWrite 0x8#32 s).trans (by simp [clearedBy])
  case rdout =>
    rw [HostStmt.expand, perform]
    simp only [List.foldl_cons, List.foldl_nil, hostPhase_readOf]
    rfl
  case mnem =>
    have henc : enc op.code (defaultF1 op) 0x00#8 = w := enc_defaultF1 (op, w) hw
    rw [← henc]
    exact perform_cmdWrite_pending _ hb he

end Sys2Proof.Machine

/-!
# Galois field arithmetic (41_galois_field.md)

`gmul` is linear in each operand over xor, so its ring laws follow from what it does at 01 and at a product
by x: every byte is reached from 00 by `xtime` and by adding 01 (`byteInduction`). The polynomial product is
followed along the same loop that computes `gmul`.
-/

namespace Sys2Proof

/-! ## The product by x -/

@[simp] theorem xtime_zero : xtime 0x00#8 = 0x00#8 := rfl

theorem xtime_xor (a b : Byte) : xtime (a ^^^ b) = xtime a ^^^ xtime b := by
  have hshift : (a ^^^ b) <<< 1 = a <<< 1 ^^^ b <<< 1 := BitVec.shiftLeft_xor_distrib a b 1
  have hreduce : (if (a ^^^ b).getLsbD 7 then 0x1B#8 else 0x00#8)
      = (if a.getLsbD 7 then 0x1B#8 else 0x00#8) ^^^ (if b.getLsbD 7 then 0x1B#8 else 0x00#8) := by
    rw [BitVec.getLsbD_xor]
    cases a.getLsbD 7 <;> cases b.getLsbD 7 <;> rfl
  rw [xtime, xtime, xtime, hshift, hreduce]
  ac_rfl

/-- Horner's rule: a byte is x times its upper seven bits, plus its bit 0. -/
theorem xtime_ushiftRight_one (a : Byte) :
    xtime (a >>> 1) ^^^ (if a.getLsbD 0 then 0x01#8 else 0x00#8) = a := by
  revert a
  decide +kernel

/-- Every byte is reached from 00 by products by x and by adding 01. -/
theorem byteInduction {P : Byte → Prop} (zero : P 0x00#8) (mulX : ∀ a, P a → P (xtime a))
    (addOne : ∀ a, P a → P (a ^^^ 0x01#8)) (a : Byte) : P a := by
  induction hn : a.toNat using Nat.strong_induction_on generalizing a with
  | _ n ih =>
    by_cases h0 : a = 0x00#8
    · exact h0 ▸ zero
    · have hpos : a.toNat ≠ 0 := fun h => h0 (BitVec.eq_of_toNat_eq h)
      have hlt : (a >>> 1).toNat < n := by
        rw [BitVec.toNat_ushiftRight, Nat.shiftRight_one]
        omega
      have hupper : P (xtime (a >>> 1)) := mulX _ (ih _ hlt _ rfl)
      rw [← xtime_ushiftRight_one a]
      split
      · exact addOne _ hupper
      · rwa [BitVec.xor_zero]

/-! ## The product of two bytes, by the loop that computes it -/

theorem gmulLoop_xor_left (b : Byte) (n k : Nat) (r r' p p' : Byte) :
    gmulLoop b n k (r ^^^ r') (p ^^^ p') = gmulLoop b n k r p ^^^ gmulLoop b n k r' p' := by
  induction n generalizing k r r' p p' with
  | zero => rfl
  | succ n ih =>
    simp only [gmulLoop]
    rw [xtime_xor, ← ih]
    split
    · congr 1
      ac_rfl
    · rfl

theorem gmulLoop_xor_right (b c : Byte) (n k : Nat) (r r' p : Byte) :
    gmulLoop (b ^^^ c) n k (r ^^^ r') p = gmulLoop b n k r p ^^^ gmulLoop c n k r' p := by
  induction n generalizing k r r' p with
  | zero => rfl
  | succ n ih =>
    simp only [gmulLoop]
    rw [← ih, BitVec.getLsbD_xor]
    congr 1
    cases b.getLsbD k <;> cases c.getLsbD k
    case false.false => rfl
    case false.true => exact BitVec.xor_assoc r r' p
    case true.false =>
      show r ^^^ r' ^^^ p = r ^^^ p ^^^ r'
      ac_rfl
    case true.true =>
      calc r ^^^ r'
        _ = r ^^^ r' ^^^ (p ^^^ p) := by rw [BitVec.xor_self, BitVec.xor_zero]
        _ = r ^^^ p ^^^ (r' ^^^ p) := by ac_rfl

theorem gmulLoop_xtime (b : Byte) (n k : Nat) (r p : Byte) :
    gmulLoop b n k (xtime r) (xtime p) = xtime (gmulLoop b n k r p) := by
  induction n generalizing k r p with
  | zero => rfl
  | succ n ih =>
    simp only [gmulLoop]
    rw [← ih]
    split
    · rw [xtime_xor]
    · rfl

/-! ## The laws of the product (41_galois_field.md R102) -/

theorem xor_gmul (a b c : Byte) : gmul (a ^^^ b) c = gmul a c ^^^ gmul b c :=
  gmulLoop_xor_left c 8 0 0x00#8 0x00#8 a b

theorem gmul_xor (a b c : Byte) : gmul a (b ^^^ c) = gmul a b ^^^ gmul a c :=
  gmulLoop_xor_right b c 8 0 0x00#8 0x00#8 a

theorem xtime_gmul (a b : Byte) : gmul (xtime a) b = xtime (gmul a b) :=
  gmulLoop_xtime b 8 0 0x00#8 a

@[simp] theorem zero_gmul (b : Byte) : gmul 0x00#8 b = 0x00#8 := by
  have h := xor_gmul 0x00#8 0x00#8 b
  rwa [BitVec.xor_self, BitVec.xor_self] at h

@[simp] theorem one_gmul (b : Byte) : gmul 0x01#8 b = b := by
  revert b
  decide +kernel

@[simp] theorem gmul_zero (a : Byte) : gmul a 0x00#8 = 0x00#8 := by
  have h := gmul_xor a 0x00#8 0x00#8
  rwa [BitVec.xor_self, BitVec.xor_self] at h

/-- The loop takes the first summand only, since 01 has bit 0 alone. -/
@[simp] theorem gmul_one (a : Byte) : gmul a 0x01#8 = a := BitVec.zero_xor

theorem gmul_xtime (a b : Byte) : gmul a (xtime b) = xtime (gmul a b) := by
  induction a using byteInduction with
  | zero => simp
  | mulX a ih => rw [xtime_gmul, xtime_gmul, ih]
  | addOne a ih => rw [xor_gmul, xor_gmul, one_gmul, one_gmul, xtime_xor, ih]

theorem gmul_comm (a b : Byte) : gmul a b = gmul b a := by
  induction a using byteInduction with
  | zero => simp
  | mulX a ih => rw [xtime_gmul, gmul_xtime, ih]
  | addOne a ih => rw [xor_gmul, gmul_xor, one_gmul, gmul_one, ih]

theorem gmul_assoc (a b c : Byte) : gmul (gmul a b) c = gmul a (gmul b c) := by
  induction a using byteInduction with
  | zero => simp
  | mulX a ih => rw [xtime_gmul, xtime_gmul, xtime_gmul, ih]
  | addOne a ih => rw [xor_gmul, xor_gmul, xor_gmul, one_gmul, one_gmul, ih]

theorem gmul_two (a : Byte) : gmul a 0x02#8 = xtime a := by
  rw [show (0x02#8 : Byte) = xtime 0x01#8 from rfl, gmul_xtime, gmul_one]

/-- Settles O30. -/
theorem gmulIsAFieldMultiplication : Obligations.GmulIsAFieldMultiplication := fun a b c =>
  ⟨gmul_comm a b, gmul_assoc a b c, gmul_xor a b c, gmul_zero a, gmul_one a, gmul_two a⟩

/-! ## The inverse (41_galois_field.md R103) -/

theorem gpow_one (a : Byte) : gpow a 1 = a := gmul_one a

theorem gpow_gmul_gpow (a : Byte) (m n : Nat) : gmul (gpow a m) (gpow a n) = gpow a (m + n) := by
  induction m with
  | zero => rw [gpow, one_gmul, Nat.zero_add]
  | succ m ih => rw [gpow, gmul_assoc, ih, Nat.succ_add, gpow]

/-- The exponents of `inverse` add up: 254 = 2 + 4 + 8 + 16 + 32 + 64 + 128. -/
theorem inverse_eq_gpow (a : Byte) : inverse a = gpow a 254 := by
  have h : inverse (gpow a 1) = gpow a 254 := by
    simp only [inverse, gpow_gmul_gpow, Nat.reduceAdd]
  rwa [gpow_one] at h

@[simp] theorem inverse_zero : inverse 0x00#8 = 0x00#8 := zero_gmul _

theorem gmul_inverse (a : Byte) (h : a ≠ 0x00#8) : gmul a (inverse a) = 0x01#8 := by
  revert a
  decide +kernel

theorem eq_inverse_of_gmul_eq_one {a b : Byte} (ha : a ≠ 0x00#8) (h : gmul a b = 0x01#8) :
    b = inverse a :=
  calc b
    _ = gmul (gmul a (inverse a)) b := by rw [gmul_inverse a ha, one_gmul]
    _ = gmul (inverse a) (gmul a b) := by rw [gmul_comm a (inverse a), gmul_assoc]
    _ = inverse a := by rw [h, gmul_one]

theorem inverse_ne_zero {a : Byte} (ha : a ≠ 0x00#8) : inverse a ≠ 0x00#8 := by
  intro h
  have hone := gmul_inverse a ha
  rw [h, gmul_zero] at hone
  exact absurd hone (by decide)

@[simp] theorem inverse_inverse (a : Byte) : inverse (inverse a) = a := by
  by_cases ha : a = 0x00#8
  · rw [ha, inverse_zero, inverse_zero]
  · have h : gmul (inverse a) a = 0x01#8 := (gmul_comm _ _).trans (gmul_inverse a ha)
    exact (eq_inverse_of_gmul_eq_one (inverse_ne_zero ha) h).symm

/-- Settles O31: uniqueness by associativity, and the involution by uniqueness. -/
theorem inverseIsTheUniqueInverse : Obligations.InverseIsTheUniqueInverse := fun a =>
  ⟨fun ha => ⟨gmul_inverse a ha, fun _ h => eq_inverse_of_gmul_eq_one ha h⟩, inverse_zero,
    inverse_eq_gpow a, inverse_inverse a⟩

/-! ## The polynomial product and its remainder (41_galois_field.md R100) -/

/-- The product by x^8 + x^4 + x^3 + x + 1, written out. -/
theorem polyProduct_modulus (q : BitVec 16) :
    polyProduct q 0x11B#16 = 0#16 ^^^ q <<< 0 ^^^ q <<< 1 ^^^ q <<< 3 ^^^ q <<< 4 ^^^ q <<< 8 := rfl

theorem polyProduct_modulus_xor (q q' : BitVec 16) :
    polyProduct (q ^^^ q') 0x11B#16 = polyProduct q 0x11B#16 ^^^ polyProduct q' 0x11B#16 := by
  simp only [polyProduct_modulus, BitVec.shiftLeft_xor_distrib, BitVec.zero_xor]
  ac_rfl

theorem polyProduct_modulus_shiftLeft (q : BitVec 16) (n : Nat) :
    polyProduct (q <<< n) 0x11B#16 = polyProduct q 0x11B#16 <<< n := by
  simp only [polyProduct_modulus, BitVec.shiftLeft_xor_distrib, BitVec.zero_xor,
    ← BitVec.shiftLeft_add, Nat.add_comm n]

/-- `p` leaves the remainder `y`, with a quotient of degree below `d`. -/
def Reduces (d : Nat) (p : BitVec 16) (y : Byte) : Prop :=
  ∃ q : BitVec 16, q.toNat < 2 ^ d ∧ p = polyProduct q 0x11B#16 ^^^ y.setWidth 16

theorem reduces_setWidth (d : Nat) (y : Byte) : Reduces d (y.setWidth 16) y :=
  ⟨0#16, Nat.two_pow_pos d, BitVec.zero_xor.symm⟩

theorem Reduces.mono {d e : Nat} (hde : d ≤ e) {p : BitVec 16} {y : Byte} (h : Reduces d p y) :
    Reduces e p y := by
  obtain ⟨q, hq, hp⟩ := h
  exact ⟨q, hq.trans_le (Nat.pow_le_pow_right (by decide) hde), hp⟩

theorem Reduces.xor {d : Nat} {p p' : BitVec 16} {y y' : Byte} (h : Reduces d p y)
    (h' : Reduces d p' y') : Reduces d (p ^^^ p') (y ^^^ y') := by
  obtain ⟨q, hq, rfl⟩ := h
  obtain ⟨q', hq', rfl⟩ := h'
  refine ⟨q ^^^ q', ?_, ?_⟩
  · rw [BitVec.toNat_xor]
    exact Nat.xor_lt_two_pow hq hq'
  · rw [polyProduct_modulus_xor, BitVec.setWidth_xor]
    ac_rfl

/-- A byte times x, as a polynomial: x^8 is taken off by one subtraction of the modulus. -/
theorem setWidth_shiftLeft_one (y : Byte) :
    y.setWidth 16 <<< 1
      = polyProduct (if y.getLsbD 7 then 1#16 else 0#16) 0x11B#16 ^^^ (xtime y).setWidth 16 := by
  revert y
  decide +kernel

theorem reduces_xtime (y : Byte) : Reduces 1 (y.setWidth 16 <<< 1) (xtime y) :=
  ⟨_, by split <;> decide, setWidth_shiftLeft_one y⟩

theorem Reduces.shiftLeft_one {d : Nat} {p : BitVec 16} {y : Byte} (h : Reduces d p y) :
    Reduces (d + 1) (p <<< 1) (xtime y) := by
  obtain ⟨q, hq, rfl⟩ := h
  have hhigh : Reduces (d + 1) (polyProduct (q <<< 1) 0x11B#16) 0x00#8 := by
    refine ⟨q <<< 1, ?_, BitVec.xor_zero.symm⟩
    rw [BitVec.toNat_shiftLeft, Nat.shiftLeft_eq, Nat.pow_one, Nat.pow_succ]
    exact (Nat.mod_le _ _).trans_lt (Nat.mul_lt_mul_of_pos_right hq (by decide))
  have hsum := hhigh.xor ((reduces_xtime y).mono (Nat.le_add_left 1 d))
  rwa [BitVec.zero_xor, polyProduct_modulus_shiftLeft, ← BitVec.shiftLeft_xor_distrib] at hsum

/-- One step of `polyProduct`: the summand at bit `k` of `b`. -/
def addShifted (a b r : BitVec 16) (k : Nat) : BitVec 16 := if b.getLsbD k then r ^^^ (a <<< k) else r

theorem polyProduct_eq_foldl (a b : BitVec 16) :
    polyProduct a b = (List.range' 0 16).foldl (addShifted a b) 0#16 := rfl

/-- The loop of `gmul` computes the remainder of the loop of `polyProduct`, step by step: its `r` is the
remainder of the sum so far, and its `p` that of `a` times x^k. -/
theorem gmulLoop_reduces (a : BitVec 16) (b : Byte) (n k : Nat) (R : BitVec 16) (r p : Byte)
    (hk : k + n ≤ 8) (hr : Reduces 7 R r) (hp : Reduces k (a <<< k) p) :
    Reduces 7 ((List.range' k n).foldl (addShifted a (b.setWidth 16)) R) (gmulLoop b n k r p) := by
  induction n generalizing k R r p with
  | zero => exact hr
  | succ n ih =>
    have hbit : (b.setWidth 16).getLsbD k = b.getLsbD k := by
      rw [BitVec.getLsbD_setWidth, decide_eq_true (by omega), Bool.true_and]
    rw [List.range'_succ, List.foldl_cons, gmulLoop]
    refine ih (k + 1) _ _ _ (by omega) ?sum ?power
    case sum =>
      rw [addShifted, hbit]
      split
      · exact hr.xor (hp.mono (by omega))
      · exact hr
    case power =>
      rw [BitVec.shiftLeft_add]
      exact hp.shiftLeft_one

/-- A byte has no bit from 8 up, so that the steps from there add nothing. -/
theorem foldl_addShifted_high (a : BitVec 16) (b : Byte) (n k : Nat) (hk : 8 ≤ k) (R : BitVec 16) :
    (List.range' k n).foldl (addShifted a (b.setWidth 16)) R = R := by
  induction n generalizing k with
  | zero => rfl
  | succ n ih =>
    have hbit : (b.setWidth 16).getLsbD k = false := by
      rw [BitVec.getLsbD_setWidth, BitVec.getLsbD_of_ge b k hk, Bool.and_false]
    rw [List.range'_succ, List.foldl_cons, addShifted, hbit]
    exact ih (k + 1) (by omega)

theorem polyProduct_reduces (a b : Byte) :
    Reduces 8 (polyProduct (a.setWidth 16) (b.setWidth 16)) (gmul a b) := by
  rw [polyProduct_eq_foldl, show List.range' 0 16 = List.range' 0 8 ++ List.range' 8 8 from rfl,
    List.foldl_append, foldl_addShifted_high _ b 8 8 (Nat.le_refl 8)]
  have hpower : Reduces 0 (a.setWidth 16 <<< 0) a := by
    rw [BitVec.shiftLeft_zero]
    exact reduces_setWidth 0 a
  exact (gmulLoop_reduces _ b 8 0 _ _ a (Nat.le_refl 8) (reduces_setWidth 7 0x00#8) hpower).mono
    (by decide)

/-! ## The commands (41_galois_field.md R104, R105) -/

/-- Byte 0 of a word is its most significant one (30_encoding.md R84). -/
theorem setWidth_shiftLeft_24 (y : Byte) : y.setWidth 32 <<< 24 = y ++ 0#24 := by
  apply BitVec.eq_of_toNat_eq
  rw [BitVec.toNat_append, BitVec.toNat_shiftLeft, BitVec.toNat_setWidth, BitVec.toNat_ofNat,
    Nat.shiftLeft_eq, Nat.shiftLeft_eq, Nat.zero_mod, Nat.or_zero]
  omega

end Sys2Proof

namespace Sys2Proof.Machine

/-- A byte result stands in byte 0 of DOUT (30_encoding.md R84). -/
theorem putByte_givesByte (y : Byte) (s : State) :
    GivesOutput (finish (putByte y s)) s ⟨y ++ 0#24, 0#32, 0#32, 0#32⟩ 1 :=
  setWidth_shiftLeft_24 y ▸ putByte_givesOutput y s

theorem exec_gmul (a b : Byte) (s : State) : exec (.gmul a b) s = finish (putByte (gmul a b) s) := rfl

theorem exec_ginv (a : Byte) (s : State) : exec (.ginv a) s = finish (putByte (inverse a) s) := rfl

/-- Settles O29: the remainder along the loop of `gmul`. -/
theorem gmulAndGinvGiveTheByte : Obligations.GmulAndGinvGiveTheByte := by
  refine ⟨fun a b s => ⟨?gmul, polyProduct_reduces a b⟩, fun a s => ⟨inverse a, ?zero, ?nonzero, ?ginv⟩⟩
  case gmul => exact exec_gmul a b s ▸ putByte_givesByte _ s
  case zero => rintro rfl; exact inverse_zero
  case nonzero => exact gmul_inverse a
  case ginv => exact exec_ginv a s ▸ putByte_givesByte _ s

end Sys2Proof.Machine

/-!
# The S-box tables (42_sbox.md)

Two facts compare the printed tables with something else, over the 256 bytes: the forward table with the
affine transform of the inverse (R120), and the inverse table with the forward one (R121). That the tables
are inverse in the other order too follows because a one-to-one map of the bytes reaches every byte.
-/

namespace Sys2Proof

/-- The printed table agrees with its construction (42_sbox.md R120). -/
theorem getLsbD_sbox (a : Byte) (i : Nat) (h : i < 8) : (sbox a).getLsbD i = affineBit (inverse a) i := by
  revert a i
  decide +kernel

/-- The printed inverse table undoes the forward one (42_sbox.md R121). -/
@[simp] theorem invSbox_sbox (x : Byte) : invSbox (sbox x) = x := by
  revert x
  decide +kernel

theorem sbox_injective : Function.Injective sbox := Function.LeftInverse.injective invSbox_sbox

theorem sbox_surjective : Function.Surjective sbox := Finite.surjective_of_injective sbox_injective

@[simp] theorem sbox_invSbox (x : Byte) : sbox (invSbox x) = x :=
  Function.LeftInverse.rightInverse_of_surjective invSbox_sbox sbox_surjective x

theorem sbox_ne_self (x : Byte) : sbox x ≠ x := by
  revert x
  decide +kernel

theorem sbox_ne_complement (x : Byte) : sbox x ≠ x ^^^ 0xFF#8 := by
  revert x
  decide +kernel

/-- Settles O33: the sample entries by reading the tables, and R122's four properties of every byte. -/
theorem sboxTablesAreInverse : Obligations.SboxTablesAreInverse :=
  ⟨rfl, rfl, rfl, rfl, rfl, rfl, fun x =>
    ⟨invSbox_sbox x, sbox_invSbox x, sbox_ne_self x, sbox_ne_complement x⟩⟩

end Sys2Proof

/-! ## The commands (42_sbox.md R124, R125) -/

namespace Sys2Proof.Machine

theorem exec_sbox (a : Byte) (s : State) : exec (.sbox a) s = finish (putByte (sbox a) s) := rfl

theorem exec_invsbox (a : Byte) (s : State) : exec (.invsbox a) s = finish (putByte (invSbox a) s) := rfl

/-- Settles O32: each command places its table's entry, which is the byte that the construction gives. -/
theorem sboxAndInvsboxGiveTheTableByte : Obligations.SboxAndInvsboxGiveTheTableByte := by
  refine ⟨fun a s => ⟨sbox a, ?affine, ?sbox⟩, fun a s => ⟨invSbox a, ?preimage, ?invsbox⟩⟩
  case affine => exact getLsbD_sbox a
  case sbox => exact exec_sbox a s ▸ putByte_givesByte _ s
  case preimage => exact sbox_invSbox a
  case invsbox => exact exec_invsbox a s ▸ putByte_givesByte _ s

end Sys2Proof.Machine

/-!
# The key schedule (43_key_schedule.md)

The loop of the expansion only appends, so a word keeps its place and every word from the ninth on is
`nextKeyWord` of the words before it: that is the recurrence of R143. The three word functions are said
byte by byte.
-/

namespace Sys2Proof

/-! ## The word functions (43_key_schedule.md R140 to R142) -/

/-- The three upper bytes come from the left shift, the last one from the right shift. -/
theorem wordByte_rotword (w : Word) (j : Nat) (h : j < 4) :
    wordByte (rotword w) j = wordByte w ((j + 1) % 4) := by
  apply BitVec.eq_of_getLsbD_eq
  intro i hi
  simp only [wordByte, rotword, BitVec.getLsbD_extractLsb', BitVec.getLsbD_or, BitVec.getLsbD_shiftLeft,
    BitVec.getLsbD_ushiftRight, hi, decide_true, Bool.true_and]
  by_cases hj : j = 3
  · subst hj
    simp [hi]
  · have hnext : 24 - 8 * ((j + 1) % 4) + i = 24 - 8 * j + i - 8 := by omega
    have hout : w.getLsbD (24 + (24 - 8 * j + i)) = false := BitVec.getLsbD_of_ge w _ (by omega)
    rw [hnext, hout, Bool.or_false, decide_eq_true (show 24 - 8 * j + i < 32 by omega),
      decide_eq_false (show ¬ 24 - 8 * j + i < 8 by omega), Bool.not_false, Bool.true_and, Bool.true_and]

theorem wordByte_subword (w : Word) (j : Nat) (h : j < 4) :
    wordByte (subword w) j = sbox (wordByte w j) := by
  interval_cases j <;> simp [subword]

/-- RCON[j] is x^(j-1) (43_key_schedule.md R142). -/
theorem rconByte_eq_gpow (j : Nat) (h1 : 1 ≤ j) (h7 : j ≤ 7) : rconByte j = gpow 0x02#8 (j - 1) := by
  interval_cases j <;> rfl

theorem rcon_eq_gpow (j : Nat) (h1 : 1 ≤ j) (h7 : j ≤ 7) : rcon j = gpow 0x02#8 (j - 1) ++ 0#24 := by
  rw [rcon, setWidth_shiftLeft_24, rconByte_eq_gpow j h1 h7]

/-! ## The loop of the expansion (43_key_schedule.md R143) -/

theorem expandWords_length (n : Nat) (w : List Word) : (expandWords n w).length = w.length + n := by
  induction n generalizing w with
  | zero => rfl
  | succ n ih =>
    rw [expandWords, ih, List.length_append, List.length_singleton]
    omega

/-- The loop appends: the words it starts with stay in front. -/
theorem prefix_expandWords (n : Nat) (w : List Word) : w <+: expandWords n w := by
  induction n generalizing w with
  | zero => exact List.prefix_rfl
  | succ n ih => exact (List.prefix_append w _).trans (ih _)

theorem getD_of_prefix {v w : List Word} (h : v <+: w) {i : Nat} (hi : i < v.length) :
    w.getD i 0#32 = v.getD i 0#32 := by
  obtain ⟨u, rfl⟩ := h
  exact List.getD_append v u _ i hi

/-- Every word that the loop adds is `nextKeyWord` of the words before it. -/
theorem expandWords_getD (n : Nat) (w : List Word) (i : Nat) (hi : w.length ≤ i)
    (hn : i < w.length + n) :
    (expandWords n w).getD i 0#32 = nextKeyWord ((expandWords n w).take i) := by
  induction n generalizing w with
  | zero => omega
  | succ n ih =>
    rw [expandWords]
    have hlen : (w ++ [nextKeyWord w]).length = w.length + 1 := List.length_append
    obtain rfl | hlt := hi.eq_or_lt
    · have hp := prefix_expandWords n (w ++ [nextKeyWord w])
      rw [getD_of_prefix hp (by omega), List.getD_append_right _ _ _ _ (Nat.le_refl _), Nat.sub_self,
        ← List.prefix_iff_eq_take.mp ((List.prefix_append w _).trans hp)]
      rfl
    · exact ih _ (by omega) (by omega)

/-- `nextKeyWord` of the first `i` words, read in the whole list. -/
theorem nextKeyWord_take (w : List Word) (i : Nat) (h8 : 8 ≤ i) (hi : i < w.length) :
    nextKeyWord (w.take i) = w.getD (i - 8) 0#32 ^^^
      (if i % 8 = 0 then subword (rotword (w.getD (i - 1) 0#32)) ^^^ rcon (i / 8)
        else if i % 8 = 4 then subword (w.getD (i - 1) 0#32)
        else w.getD (i - 1) 0#32) := by
  have hlen : (w.take i).length = i := List.length_take_of_le hi.le
  have hget : ∀ m, m < i → w.getD m 0#32 = (w.take i).getD m 0#32 := fun m hm =>
    getD_of_prefix (List.take_prefix i w) (by omega)
  rw [nextKeyWord, hlen, hget (i - 8) (by omega), hget (i - 1) (by omega)]

/-! ## The expansion of a key -/

theorem keyWords_length (k : Key) : (keyWords k).length = 60 := expandWords_length 52 k.words

@[simp] theorem toList_keyExpansion (k : Key) : (keyExpansion k).toList = keyWords k := by
  apply List.ext_getElem
  · rw [Vector.length_toList, keyWords_length]
  · intro i h1 h2
    simp [keyExpansion, h2]

/-- Word `i` of the key, from its bytes (20_memory.md R62). -/
theorem words_getD_eq_bytes (k : Key) (i : Nat) :
    k.words.getD i 0#32
      = k.byte (4 * i) ++ k.byte (4 * i + 1) ++ k.byte (4 * i + 2) ++ k.byte (4 * i + 3) := by
  have hbyte : ∀ j, j < 4 → k.byte (4 * i + j) = wordByte (k.words.getD i 0#32) j := by
    intro j hj
    rw [Key.byte, show (4 * i + j) / 4 = i by omega, show (4 * i + j) % 4 = j by omega]
  rw [hbyte 1 (by omega), hbyte 2 (by omega), hbyte 3 (by omega), ← Nat.add_zero (4 * i),
    hbyte 0 (by omega)]
  exact (wordOfBytes_wordByte _).symm

/-- Settles O35: the key's words stay in front, and each added word is `nextKeyWord` of those before it. -/
theorem keyExpansionFollowsItsRecurrence : Obligations.KeyExpansionFollowsItsRecurrence := by
  intro k
  simp only [toList_keyExpansion]
  refine ⟨fun i hi => ?key, fun i h8 hi => ?added⟩
  case key => exact (getD_of_prefix (prefix_expandWords 52 k.words) hi).trans (words_getD_eq_bytes k i)
  case added =>
    calc (keyWords k).getD i 0#32
      _ = nextKeyWord ((keyWords k).take i) := expandWords_getD 52 k.words i h8 hi
      _ = _ := nextKeyWord_take _ i h8 ((keyWords_length k).symm ▸ hi)

end Sys2Proof

/-! ## The commands (43_key_schedule.md R144 to R147) -/

namespace Sys2Proof.Machine

theorem exec_keyexp (len : Byte) (s : State) :
    exec (.keyexp len) s = if s.mode ≠ .idle then fail .sequenceError s
      else if len ≠ 32#8 then fail .invalidKeyLength s
      else finish { s with rk := keyExpansion s.key, keyv := true } := rfl

theorem exec_rotword (s : State) : exec .rotword s = finish (putWord (rotword s.din.w0) s) := rfl

theorem exec_subword (s : State) : exec .subword s = finish (putWord (subword s.din.w0) s) := rfl

theorem exec_rcon (j : Byte) (s : State) :
    exec (.rcon j) s = if 1 ≤ j.toNat ∧ j.toNat ≤ 7 then finish (putWord (rcon j.toNat) s)
      else fail .illegalCommand s := rfl

/-- Settles O34: the two checks in the order of 60_exceptions.md R272, and the expansion when both pass. -/
theorem keyexpExpandsTheKey : Obligations.KeyexpExpandsTheKey := by
  intro len s
  rw [exec_keyexp]
  refine ⟨fun hm hl => ?expands, fun hm => ?sequence, fun hm hl => ?length⟩
  case expands =>
    rw [if_neg (not_not.mpr hm), if_neg (not_not.mpr hl)]
    exact ⟨_, rfl, rfl, rfl, completed_complete _, ⟨rfl, rfl, rfl, rfl, rfl⟩, rfl, ⟨rfl, rfl, rfl⟩, rfl,
      ⟨rfl, rfl⟩, ⟨rfl, rfl⟩, ⟨rfl, rfl, rfl, rfl⟩⟩
  case sequence =>
    rw [if_pos hm]
    exact fail_takesError _ s
  case length =>
    rw [if_neg (not_not.mpr hm), if_pos hl]
    exact fail_takesError _ s

/-- Settles O36: each word byte by byte, and RCON by its index. -/
theorem rotwordSubwordRconGiveTheWord : Obligations.RotwordSubwordRconGiveTheWord := by
  refine ⟨fun s => ?rotword, fun s => ?subword, fun j s => ⟨fun ⟨h1, h7⟩ => ?constant, fun hj => ?illegal⟩⟩
  case rotword =>
    have hbyte := wordByte_rotword s.din.w0
    exact ⟨rotword s.din.w0, hbyte 0 (by decide), hbyte 1 (by decide), hbyte 2 (by decide),
      hbyte 3 (by decide), exec_rotword s ▸ putWord_givesOutput _ s⟩
  case subword =>
    exact ⟨subword s.din.w0, wordByte_subword s.din.w0, exec_subword s ▸ putWord_givesOutput _ s⟩
  case constant =>
    rw [exec_rcon, if_pos ⟨h1, h7⟩, ← rcon_eq_gpow j.toNat h1 h7]
    exact putWord_givesOutput _ s
  case illegal =>
    rw [exec_rcon, if_neg (by omega)]
    exact fail_takesError _ s

end Sys2Proof.Machine

/-!
# The block transform (44_block_transform.md)

Each step is said byte by byte once, and each inverse step is shown to undo its step both ways. The two
matrices are circulant, so their product is again circulant and four sums of products show that it is the
identity. The two ciphers then undo each other round by round.
-/

namespace Sys2Proof

/-! ## The steps byte by byte (44_block_transform.md R161 to R164) -/

theorem byte_subBytes (b : Block) (i : Nat) (h : i < 16) : (subBytes b).byte i = sbox (b.byte i) :=
  byte_ofBytes _ i h

theorem byte_invSubBytes (b : Block) (i : Nat) (h : i < 16) :
    (invSubBytes b).byte i = invSbox (b.byte i) :=
  byte_ofBytes _ i h

theorem entry_shiftRows (b : Block) (r c : Nat) (hr : r < 4) (hc : c < 4) :
    (shiftRows b).entry r c = b.entry r ((c + r) % 4) :=
  entry_ofMatrix _ r c hr hc

theorem entry_invShiftRows (b : Block) (r c : Nat) (hr : r < 4) (hc : c < 4) :
    (invShiftRows b).entry r c = b.entry r ((c + 4 - r) % 4) :=
  entry_ofMatrix _ r c hr hc

theorem bytes_ofMatrix (m : Nat → Nat → Byte) :
    (Block.ofMatrix m).bytes = (List.range 16).map fun i => m (i % 4) (i / 4) :=
  List.map_congr_left fun i hi => byte_ofBytes _ i (List.mem_range.mp hi)

/-- The index form of R163. -/
theorem bytes_shiftRows (b : Block) :
    (shiftRows b).bytes = [0, 5, 10, 15, 4, 9, 14, 3, 8, 13, 2, 7, 12, 1, 6, 11].map b.byte := by
  have hindex : (List.range 16).map (fun i => i % 4 + 4 * ((i / 4 + i % 4) % 4))
      = [0, 5, 10, 15, 4, 9, 14, 3, 8, 13, 2, 7, 12, 1, 6, 11] := by decide
  rw [shiftRows, bytes_ofMatrix, ← hindex, List.map_map]
  rfl

/-- The index form of R164. -/
theorem bytes_invShiftRows (b : Block) :
    (invShiftRows b).bytes = [0, 13, 10, 7, 4, 1, 14, 11, 8, 5, 2, 15, 12, 9, 6, 3].map b.byte := by
  have hindex : (List.range 16).map (fun i => i % 4 + 4 * ((i / 4 + 4 - i % 4) % 4))
      = [0, 13, 10, 7, 4, 1, 14, 11, 8, 5, 2, 15, 12, 9, 6, 3] := by decide
  rw [invShiftRows, bytes_ofMatrix, ← hindex, List.map_map]
  rfl

/-! ## The two matrices as circulants (44_block_transform.md R165, R166) -/

/-- Row `r` of the circulant matrix with first row `m0 m1 m2 m3`, times the column `x`. -/
def circulantRow (m0 m1 m2 m3 : Byte) (x : Nat → Byte) (r : Nat) : Byte :=
  dot4 m0 m1 m2 m3 (x r) (x ((r + 1) % 4)) (x ((r + 2) % 4)) (x ((r + 3) % 4))

theorem mixRow_eq_circulantRow (x : Nat → Byte) (r : Nat) (h : r < 4) :
    mixRow r (x 0) (x 1) (x 2) (x 3) = circulantRow 0x02#8 0x03#8 0x01#8 0x01#8 x r := by
  interval_cases r <;> simp only [mixRow, circulantRow, dot4, Nat.reduceAdd, Nat.reduceMod] <;> ac_rfl

theorem invMixRow_eq_circulantRow (x : Nat → Byte) (r : Nat) (h : r < 4) :
    invMixRow r (x 0) (x 1) (x 2) (x 3) = circulantRow 0x0E#8 0x0B#8 0x0D#8 0x09#8 x r := by
  interval_cases r <;> simp only [invMixRow, circulantRow, dot4, Nat.reduceAdd, Nat.reduceMod] <;> ac_rfl

theorem entry_mixColumns (b : Block) (r c : Nat) (hr : r < 4) (hc : c < 4) :
    (mixColumns b).entry r c = circulantRow 0x02#8 0x03#8 0x01#8 0x01#8 (b.entry · c) r :=
  (entry_ofMatrix _ r c hr hc).trans (mixRow_eq_circulantRow (b.entry · c) r hr)

theorem entry_invMixColumns (b : Block) (r c : Nat) (hr : r < 4) (hc : c < 4) :
    (invMixColumns b).entry r c = circulantRow 0x0E#8 0x0B#8 0x0D#8 0x09#8 (b.entry · c) r :=
  (entry_ofMatrix _ r c hr hc).trans (invMixRow_eq_circulantRow (b.entry · c) r hr)

/-- R165 with the products by 01 left out. -/
theorem byte_mixColumns (b : Block) (r c : Nat) (hr : r < 4) (hc : c < 4) :
    (mixColumns b).byte (r + 4 * c)
      = gmul 0x02#8 (b.byte (r + 4 * c)) ^^^ gmul 0x03#8 (b.byte ((r + 1) % 4 + 4 * c))
        ^^^ b.byte ((r + 2) % 4 + 4 * c) ^^^ b.byte ((r + 3) % 4 + 4 * c) := by
  have h := entry_mixColumns b r c hr hc
  rwa [circulantRow, dot4, one_gmul, one_gmul] at h

/-- The product of two circulants is the circulant of the cyclic convolution of their first rows. -/
theorem dot4_dot4 (n0 n1 n2 n3 m0 m1 m2 m3 x0 x1 x2 x3 : Byte) :
    dot4 n0 n1 n2 n3 (dot4 m0 m1 m2 m3 x0 x1 x2 x3) (dot4 m0 m1 m2 m3 x1 x2 x3 x0)
        (dot4 m0 m1 m2 m3 x2 x3 x0 x1) (dot4 m0 m1 m2 m3 x3 x0 x1 x2)
      = dot4 (dot4 n0 n1 n2 n3 m0 m3 m2 m1) (dot4 n0 n1 n2 n3 m1 m0 m3 m2)
        (dot4 n0 n1 n2 n3 m2 m1 m0 m3) (dot4 n0 n1 n2 n3 m3 m2 m1 m0) x0 x1 x2 x3 := by
  -- Both sides are the sum of the sixteen products of an n, an m and an x.
  simp only [dot4, gmul_xor, xor_gmul, gmul_assoc]
  ac_rfl

theorem circulantRow_circulantRow (n0 n1 n2 n3 m0 m1 m2 m3 : Byte) (x : Nat → Byte) (r : Nat)
    (h : r < 4) :
    circulantRow n0 n1 n2 n3 (circulantRow m0 m1 m2 m3 x) r
      = circulantRow (dot4 n0 n1 n2 n3 m0 m3 m2 m1) (dot4 n0 n1 n2 n3 m1 m0 m3 m2)
        (dot4 n0 n1 n2 n3 m2 m1 m0 m3) (dot4 n0 n1 n2 n3 m3 m2 m1 m0) x r := by
  interval_cases r <;> exact dot4_dot4 n0 n1 n2 n3 m0 m1 m2 m3 _ _ _ _

theorem circulantRow_unit (x : Nat → Byte) (r : Nat) :
    circulantRow 0x01#8 0x00#8 0x00#8 0x00#8 x r = x r := by
  simp [circulantRow, dot4]

/-- A row reads its column in rows 0 to 3 only. -/
theorem circulantRow_congr (m0 m1 m2 m3 : Byte) {x y : Nat → Byte} (h : ∀ i, i < 4 → x i = y i) (r : Nat)
    (hr : r < 4) : circulantRow m0 m1 m2 m3 x r = circulantRow m0 m1 m2 m3 y r := by
  rw [circulantRow, circulantRow, h r hr, h _ (Nat.mod_lt _ four_pos), h _ (Nat.mod_lt _ four_pos),
    h _ (Nat.mod_lt _ four_pos)]

/-- The first row of the matrix of R166 times that of R165 is 01 00 00 00. -/
theorem circulantRow_invMix_mix (x : Nat → Byte) (r : Nat) (h : r < 4) :
    circulantRow 0x0E#8 0x0B#8 0x0D#8 0x09#8 (circulantRow 0x02#8 0x03#8 0x01#8 0x01#8 x) r = x r :=
  (circulantRow_circulantRow 0x0E#8 0x0B#8 0x0D#8 0x09#8 0x02#8 0x03#8 0x01#8 0x01#8 x r h).trans
    (circulantRow_unit x r)

theorem circulantRow_mix_invMix (x : Nat → Byte) (r : Nat) (h : r < 4) :
    circulantRow 0x02#8 0x03#8 0x01#8 0x01#8 (circulantRow 0x0E#8 0x0B#8 0x0D#8 0x09#8 x) r = x r :=
  (circulantRow_circulantRow 0x02#8 0x03#8 0x01#8 0x01#8 0x0E#8 0x0B#8 0x0D#8 0x09#8 x r h).trans
    (circulantRow_unit x r)

/-! ## Each inverse step undoes its step -/

@[simp] theorem invSubBytes_subBytes (b : Block) : invSubBytes (subBytes b) = b :=
  block_eq_of_bytes fun i hi => by rw [byte_invSubBytes _ i hi, byte_subBytes _ i hi, invSbox_sbox]

@[simp] theorem subBytes_invSubBytes (b : Block) : subBytes (invSubBytes b) = b :=
  block_eq_of_bytes fun i hi => by rw [byte_subBytes _ i hi, byte_invSubBytes _ i hi, sbox_invSbox]

@[simp] theorem invShiftRows_shiftRows (b : Block) : invShiftRows (shiftRows b) = b :=
  block_eq_of_entries fun r c hr hc => by
    rw [entry_invShiftRows _ r c hr hc, entry_shiftRows _ r _ hr (by omega),
      show ((c + 4 - r) % 4 + r) % 4 = c by omega]

@[simp] theorem shiftRows_invShiftRows (b : Block) : shiftRows (invShiftRows b) = b :=
  block_eq_of_entries fun r c hr hc => by
    rw [entry_shiftRows _ r c hr hc, entry_invShiftRows _ r _ hr (by omega),
      show ((c + r) % 4 + 4 - r) % 4 = c by omega]

@[simp] theorem invMixColumns_mixColumns (b : Block) : invMixColumns (mixColumns b) = b :=
  block_eq_of_entries fun r c hr hc => by
    rw [entry_invMixColumns _ r c hr hc,
      circulantRow_congr _ _ _ _ (fun i hi => entry_mixColumns b i c hi hc) r hr,
      circulantRow_invMix_mix _ r hr]

@[simp] theorem mixColumns_invMixColumns (b : Block) : mixColumns (invMixColumns b) = b :=
  block_eq_of_entries fun r c hr hc => by
    rw [entry_mixColumns _ r c hr hc,
      circulantRow_congr _ _ _ _ (fun i hi => entry_invMixColumns b i c hi hc) r hr,
      circulantRow_mix_invMix _ r hr]

@[simp] theorem addRoundKey_addRoundKey (rk : Vector Word 60) (b : Block) (r : Nat) :
    addRoundKey rk (addRoundKey rk b r) r = b :=
  xor_xor_cancel b _

/-- Settles O39: one lemma for each step and each order, and the xor that cancels itself. -/
theorem roundTransformationsAreInverted : Obligations.RoundTransformationsAreInverted := fun b k =>
  ⟨invSubBytes_subBytes b, subBytes_invSubBytes b, invShiftRows_shiftRows b, shiftRows_invShiftRows b,
    invMixColumns_mixColumns b, mixColumns_invMixColumns b, xor_xor_cancel b k⟩

/-! ## The ciphers undo each other (44_block_transform.md R168, R169) -/

/-- One round of the decryption undoes the round of the encryption with the same key. -/
theorem decRound_encRound (rk : Vector Word 60) (r : Nat) (b : Block) :
    invSubBytes (invShiftRows (invMixColumns
      (addRoundKey rk (addRoundKey rk (mixColumns (shiftRows (subBytes b))) r) r))) = b := by
  rw [addRoundKey_addRoundKey, invMixColumns_mixColumns, invShiftRows_shiftRows, invSubBytes_subBytes]

theorem encRound_decRound (rk : Vector Word 60) (r : Nat) (b : Block) :
    addRoundKey rk (mixColumns (shiftRows (subBytes
      (invSubBytes (invShiftRows (invMixColumns (addRoundKey rk b r))))))) r = b := by
  rw [subBytes_invSubBytes, shiftRows_invShiftRows, mixColumns_invMixColumns, addRoundKey_addRoundKey]

@[simp] theorem decRounds_encRounds (rk : Vector Word 60) (r : Nat) (b : Block) :
    decRounds rk r (encRounds rk r b) = b := by
  induction r with
  | zero => rfl
  | succ r ih => rw [encRounds, decRounds, decRound_encRound, ih]

@[simp] theorem encRounds_decRounds (rk : Vector Word 60) (r : Nat) (b : Block) :
    encRounds rk r (decRounds rk r b) = b := by
  induction r generalizing b with
  | zero => rfl
  | succ r ih => rw [decRounds, encRounds, ih, encRound_decRound]

@[simp] theorem invCipher_cipher (rk : Vector Word 60) (b : Block) : invCipher rk (cipher rk b) = b := by
  rw [invCipher, cipher, addRoundKey_addRoundKey, invShiftRows_shiftRows, invSubBytes_subBytes,
    decRounds_encRounds, addRoundKey_addRoundKey]

@[simp] theorem cipher_invCipher (rk : Vector Word 60) (b : Block) : cipher rk (invCipher rk b) = b := by
  rw [cipher, invCipher, addRoundKey_addRoundKey, encRounds_decRounds, subBytes_invSubBytes,
    shiftRows_invShiftRows, addRoundKey_addRoundKey]

/-- Settles O40: round by round, each line of R169 undoes its line of R168. -/
theorem decryptionInvertsEncryption : Obligations.DecryptionInvertsEncryption := fun rk b =>
  ⟨invCipher_cipher rk b, cipher_invCipher rk b⟩

/-! ## The rounds one by one -/

/-- The states of the encryption after each round (44_block_transform.md R168). -/
theorem cipher_rounds (rk : Vector Word 60) (b : Block) :
    ∃ e : Nat → Block, e 0 = b.xor (roundKey rk 0)
      ∧ (∀ r, 1 ≤ r → r ≤ 13 →
        e r = (mixColumns (shiftRows (subBytes (e (r - 1))))).xor (roundKey rk r))
      ∧ cipher rk b = (shiftRows (subBytes (e 13))).xor (roundKey rk 14) := by
  refine ⟨fun r => encRounds rk r (addRoundKey rk b 0), rfl, fun r h1 _ => ?_, rfl⟩
  obtain ⟨n, rfl⟩ := Nat.exists_eq_add_of_le' h1
  rfl

/-- The states of the decryption after each round (44_block_transform.md R169). They are the encryption's
states from the last one backwards: what a round of the decryption answers is what the same round of the
encryption starts from. -/
theorem invCipher_rounds (rk : Vector Word 60) (b : Block) :
    ∃ d : Nat → Block, d 14 = invSubBytes (invShiftRows (b.xor (roundKey rk 14)))
      ∧ (∀ r, 1 ≤ r → r ≤ 13 →
        d r = invSubBytes (invShiftRows (invMixColumns ((d (r + 1)).xor (roundKey rk r)))))
      ∧ invCipher rk b = (d 1).xor (roundKey rk 0) := by
  refine ⟨fun r => encRounds rk (r - 1)
    (decRounds rk 13 (invSubBytes (invShiftRows (addRoundKey rk b 14)))), ?last, fun r h1 _ => ?round, rfl⟩
  case last => exact encRounds_decRounds rk 13 _
  case round =>
    obtain ⟨n, rfl⟩ := Nat.exists_eq_add_of_le' h1
    exact (decRound_encRound rk (n + 1) _).symm

end Sys2Proof

/-! ## The commands (44_block_transform.md R170 to R178) -/

namespace Sys2Proof.Machine

theorem exec_subbytes (s : State) : exec .subbytes s = finish (putBlock (subBytes s.din) 16#5 s) := rfl

theorem exec_invsubbytes (s : State) :
    exec .invsubbytes s = finish (putBlock (invSubBytes s.din) 16#5 s) := rfl

theorem exec_shiftrows (s : State) : exec .shiftrows s = finish (putBlock (shiftRows s.din) 16#5 s) := rfl

theorem exec_invshiftrows (s : State) :
    exec .invshiftrows s = finish (putBlock (invShiftRows s.din) 16#5 s) := rfl

theorem exec_mixcolumns (s : State) :
    exec .mixcolumns s = finish (putBlock (mixColumns s.din) 16#5 s) := rfl

theorem exec_invmixcolumns (s : State) :
    exec .invmixcolumns s = finish (putBlock (invMixColumns s.din) 16#5 s) := rfl

theorem exec_addrk (s : State) : exec .addrk s = finish (putBlock (s.din.xor s.iv) 16#5 s) := rfl

theorem putBlock_givesBlock (b : Block) (s : State) :
    GivesOutput (finish (putBlock b 16#5 s)) s b 16 :=
  putBlock_givesOutput b 16#5 s

/-- Settles O38: every command places its step's Block, whose bytes are those of the spec. -/
theorem primitiveRoundCommandsTransformTheBlock : Obligations.PrimitiveRoundCommandsTransformTheBlock := by
  intro s
  refine ⟨⟨_, exec_subbytes s ▸ putBlock_givesBlock _ s, ?sub⟩,
    ⟨_, exec_invsubbytes s ▸ putBlock_givesBlock _ s, ?invSub⟩,
    ⟨_, exec_shiftrows s ▸ putBlock_givesBlock _ s, ?shift⟩,
    ⟨_, exec_invshiftrows s ▸ putBlock_givesBlock _ s, ?invShift⟩,
    ⟨_, exec_mixcolumns s ▸ putBlock_givesBlock _ s, ?mix⟩,
    ⟨_, exec_invmixcolumns s ▸ putBlock_givesBlock _ s, ?invMix⟩,
    ⟨_, exec_addrk s ▸ putBlock_givesBlock _ s, ?addrk⟩⟩
  case sub => exact byte_subBytes s.din
  case invSub => exact byte_invSubBytes s.din
  case shift => exact bytes_shiftRows s.din
  case invShift => exact bytes_invShiftRows s.din
  case mix => exact byte_mixColumns s.din
  case invMix => exact entry_invMixColumns s.din
  case addrk => exact fun i _ => byte_xor s.din s.iv i

/-- What ENCB and DECB share: the two checks in the order of 60_exceptions.md R272, and a Block as the
result when both pass. -/
def blockCommand (b : Block) (len : Byte) (s : State) : Result :=
  if s.keyv = false then fail .noKey s
  else if len ≠ 16#8 then fail .invalidBlockSize s
  else finish (putBlock b 16#5 s)

theorem exec_encb (len : Byte) (s : State) :
    exec (.encb len) s = blockCommand (cipher s.rk s.din) len s := rfl

theorem exec_decb (len : Byte) (s : State) :
    exec (.decb len) s = blockCommand (invCipher s.rk s.din) len s := rfl

theorem blockCommand_givesOutput (b : Block) {len : Byte} {s : State} (hk : s.keyv = true)
    (hl : len = 16#8) : GivesOutput (blockCommand b len s) s b 16 := by
  rw [blockCommand, if_neg (by simp [hk]), if_neg (not_not.mpr hl)]
  exact putBlock_givesBlock b s

theorem blockCommand_noKey (b : Block) (len : Byte) {s : State} (hk : s.keyv = false) :
    TakesError (blockCommand b len s) s .noKey := by
  rw [blockCommand, if_pos hk]
  exact fail_takesError _ s

theorem blockCommand_invalidBlockSize (b : Block) {len : Byte} {s : State} (hk : s.keyv = true)
    (hl : len ≠ 16#8) : TakesError (blockCommand b len s) s .invalidBlockSize := by
  rw [blockCommand, if_neg (by simp [hk]), if_pos hl]
  exact fail_takesError _ s

/-- Settles O37: the ciphers round by round, the steps byte by byte, and the checks of the commands. -/
theorem encbAndDecbRunTheCipher : Obligations.EncbAndDecbRunTheCipher := by
  refine ⟨fun rk b => ⟨cipher_rounds rk b, invCipher_rounds rk b⟩,
    fun b s => ⟨fun i hi => ⟨byte_subBytes b i hi, ?sboxCommand⟩, bytes_shiftRows b, byte_mixColumns b,
      invSubBytes_subBytes b, invShiftRows_shiftRows b, invMixColumns_mixColumns b⟩,
    fun len s => ?commands⟩
  case sboxCommand =>
    rw [exec_sbox, byte_subBytes b i hi]
    exact putByte_givesByte _ s
  case commands =>
    rw [exec_encb, exec_decb]
    exact ⟨fun hk hl => ⟨blockCommand_givesOutput _ hk hl, blockCommand_givesOutput _ hk hl⟩,
      fun hk => ⟨blockCommand_noKey _ len hk, blockCommand_noKey _ len hk⟩,
      fun hk hl => ⟨blockCommand_invalidBlockSize _ hk hl, blockCommand_invalidBlockSize _ hk hl⟩⟩

end Sys2Proof.Machine

/-!
# Padding (45_padding.md)

A Block has pad length N when its last N bytes are all N (R203); `padcheck` finds that N and no other, so
the statements about UNPAD and about a tampered pad speak of this predicate and not of the loop. At message
level a data sequence followed by N bytes of value N is unpadded to the data.
-/

namespace Sys2Proof

/-! ## The pad length of a Block (45_padding.md R202, R203) -/

/-- The Block ends in a valid pad of n bytes (45_padding.md R203). -/
def EndsInPad (b : Block) (n : Nat) : Prop :=
  1 ≤ n ∧ n ≤ 16 ∧ ∀ i, 16 - n ≤ i → i < 16 → (b.byte i).toNat = n

theorem EndsInPad.last {b : Block} {n : Nat} (h : EndsInPad b n) : (b.byte 15).toNat = n := by
  obtain ⟨h1, -, hbytes⟩ := h
  exact hbytes 15 (by omega) (by decide)

/-- A value that fits in a byte, as a byte. -/
theorem eq_ofNat_iff_toNat {x : Byte} {n : Nat} (h : n < 256) : x = BitVec.ofNat 8 n ↔ x.toNat = n := by
  rw [BitVec.toNat_eq, BitVec.toNat_ofNat, Nat.mod_eq_of_lt h]

/-- The test of all 16 bytes under a mask built from n (45_padding.md R203). -/
theorem all_masked_iff (b : Block) {n : Nat} (h : n < 256) :
    (List.range 16).all (fun i => decide (i < 16 - n) || b.byte i == BitVec.ofNat 8 n) = true
      ↔ ∀ i, 16 - n ≤ i → i < 16 → (b.byte i).toNat = n := by
  simp only [List.all_eq_true, List.mem_range, Bool.or_eq_true, decide_eq_true_eq, beq_iff_eq,
    eq_ofNat_iff_toNat h, or_iff_not_imp_left, not_lt]
  exact forall_congr' fun i => forall_comm

/-- `padcheck` accepts exactly the valid pads, with their length (45_padding.md R203). -/
theorem padcheck_eq_some_iff (b : Block) (n : Nat) : padcheck b = some n ↔ EndsInPad b n := by
  simp only [padcheck]
  constructor
  · intro h
    split_ifs at h with hrange hall
    cases h
    exact ⟨by omega, by omega, (all_masked_iff b (by omega)).mp hall⟩
  · intro h
    have ⟨h1, h16, hbytes⟩ := h
    rw [h.last, if_neg (by omega), if_pos ((all_masked_iff b (by omega)).mpr hbytes)]

theorem padcheck_eq_none_iff (b : Block) : padcheck b = none ↔ ¬ ∃ n, EndsInPad b n := by
  simp only [Option.eq_none_iff_forall_ne_some, ne_eq, padcheck_eq_some_iff, not_exists]

theorem byte_padblock (b : Block) (t : Nat) {i : Nat} (h : i < 16) :
    (padblock b t).byte i = if i < t then b.byte i else BitVec.ofNat 8 (16 - t) :=
  byte_ofBytes _ i h

theorem endsInPad_padblock (b : Block) {t : Nat} (h : t ≤ 15) : EndsInPad (padblock b t) (16 - t) := by
  refine ⟨by omega, by omega, fun i hlo hi => ?_⟩
  rw [byte_padblock b t hi, if_neg (by omega)]
  exact (eq_ofNat_iff_toNat (by omega)).mp rfl

/-- The padding of a padded Block is its pad length (45_padding.md R206). -/
theorem padcheck_padblock (b : Block) {t : Nat} (h : t ≤ 15) : padcheck (padblock b t) = some (16 - t) :=
  (padcheck_eq_some_iff _ _).mpr (endsInPad_padblock b h)

/-! ## The padding of a message (45_padding.md R200, R201) -/

/-- Data followed by n bytes of value n, in whole blocks, is unpadded to the data (45_padding.md R201). -/
theorem unpad_append_replicate (data : List Byte) {n : Nat} (h1 : 1 ≤ n) (h16 : n ≤ 16)
    (hblocks : (data.length + n) % 16 = 0) :
    unpad (data ++ List.replicate n (BitVec.ofNat 8 n)) = some data := by
  have hlast : (data ++ List.replicate n (BitVec.ofNat 8 n)).getD (data.length + n - 1) 0x00#8
      = BitVec.ofNat 8 n := by
    rw [List.getD_append_right _ _ _ _ (by omega), List.getD_replicate _ (by omega)]
  have htoNat : (BitVec.ofNat 8 n).toNat = n := (eq_ofNat_iff_toNat (by omega)).mp rfl
  simp only [unpad, List.length_append, List.length_replicate, hlast, htoNat, Nat.add_sub_cancel]
  rw [if_neg (by omega), if_neg (by omega), if_neg (not_not.mpr List.drop_left), List.take_left]

theorem unpad_pad (data : List Byte) : unpad (pad data) = some data :=
  unpad_append_replicate data (by omega) (by omega) (by omega)

/-! ## Another final byte (45_padding.md R207) -/

/-- The Block with its final byte replaced (45_padding.md R207). -/
def replaceLast (b : Block) (v : Byte) : Block := Block.ofBytes fun i => if i = 15 then v else b.byte i

theorem byte_replaceLast_last (b : Block) (v : Byte) : (replaceLast b v).byte 15 = v :=
  byte_ofBytes _ 15 (by decide)

theorem byte_replaceLast_front (b : Block) (v : Byte) {i : Nat} (h : i ≤ 14) :
    (replaceLast b v).byte i = b.byte i :=
  (byte_ofBytes _ i (by omega)).trans (if_neg (by omega))

/-- The only pad length the new Block can have is the new byte, and the bytes before it decide. -/
theorem endsInPad_replaceLast_iff (b : Block) (v : Byte) (k : Nat) :
    EndsInPad (replaceLast b v) k
      ↔ v.toNat = k ∧ 1 ≤ k ∧ k ≤ 16 ∧ ∀ i, 16 - k ≤ i → i ≤ 14 → (b.byte i).toNat = k := by
  constructor
  · intro h
    have ⟨h1, h16, hbytes⟩ := h
    refine ⟨byte_replaceLast_last b v ▸ h.last, h1, h16, fun i hlo hi => ?_⟩
    rw [← byte_replaceLast_front b v hi]
    exact hbytes i hlo (by omega)
  · rintro ⟨hv, h1, h16, hbytes⟩
    refine ⟨h1, h16, fun i hlo hi => ?_⟩
    obtain rfl | hi' : i = 15 ∨ i ≤ 14 := by omega
    · rw [byte_replaceLast_last, hv]
    · rw [byte_replaceLast_front b v hi', hbytes i hlo hi']

/-- Byte 14 is still the old pad byte, so a new pad of 2 or more would be the old one
(45_padding.md R207 item 1). -/
theorem endsInPad_replaceLast_of_two_le {b : Block} {n : Nat} (hb : EndsInPad b n) (hn : 2 ≤ n) {v : Byte}
    (hv : v.toNat ≠ n) (k : Nat) : EndsInPad (replaceLast b v) k ↔ k = 1 ∧ v = 0x01#8 := by
  obtain ⟨-, h16, hold⟩ := hb
  rw [endsInPad_replaceLast_iff, show (v = 0x01#8 ↔ v.toNat = 1) from eq_ofNat_iff_toNat (by decide)]
  constructor
  · rintro ⟨rfl, h1, -, hnew⟩
    have hsmall : ¬ 2 ≤ v.toNat := fun h2 =>
      hv ((hnew 14 (by omega) le_rfl).symm.trans (hold 14 (by omega) (by decide)))
    omega
  · rintro ⟨rfl, hv1⟩
    exact ⟨hv1, le_rfl, by decide, fun i hlo hi => by omega⟩

theorem padcheck_replaceLast_of_two_le {b : Block} {n : Nat} (hb : padcheck b = some n) (hn : 2 ≤ n)
    {v : Byte} (hv : v.toNat ≠ n) : padcheck (replaceLast b v) = if v = 0x01#8 then some 1 else none := by
  have hpads := endsInPad_replaceLast_of_two_le ((padcheck_eq_some_iff b n).mp hb) hn hv
  split_ifs with hv1
  · exact (padcheck_eq_some_iff _ 1).mpr ((hpads 1).mpr ⟨rfl, hv1⟩)
  · exact (padcheck_eq_none_iff _).mpr fun ⟨k, hk⟩ => hv1 ((hpads k).mp hk).2

theorem padcheck_replaceLast_ne_none_iff (b : Block) {v : Byte} (hv : v.toNat ≠ 1) :
    padcheck (replaceLast b v) ≠ none
      ↔ 2 ≤ v.toNat ∧ v.toNat ≤ 16 ∧ ∀ i, 16 - v.toNat ≤ i → i ≤ 14 → b.byte i = v := by
  have htwo : 1 ≤ v.toNat ↔ 2 ≤ v.toNat := by omega
  simp only [ne_eq, padcheck_eq_none_iff, not_not, endsInPad_replaceLast_iff, exists_eq_left',
    ← BitVec.toNat_eq, htwo]

/-- Settles O44: the pads the new Block can have, for an old pad of at least 2 and for one of 1. -/
theorem tamperedFinalByteIsRejected : Obligations.TamperedFinalByteIsRejected := fun b _ _ hb hv =>
  ⟨fun hn => padcheck_replaceLast_of_two_le hb hn hv,
    fun hn => padcheck_replaceLast_ne_none_iff b (hn ▸ hv)⟩

end Sys2Proof

/-! ## The commands (45_padding.md R204 to R206) -/

namespace Sys2Proof.Machine

theorem exec_pad {t : Byte} (h : t.toNat ≤ 15) (s : State) :
    exec (.pad t) s = finish (putBlock (padblock s.din t.toNat) 16#5 s) :=
  if_neg (Nat.not_lt.mpr h)

theorem exec_pad_illegal {t : Byte} (h : 15 < t.toNat) (s : State) :
    exec (.pad t) s = fail .illegalCommand s :=
  if_pos h

theorem exec_unpad_valid {s : State} {n : Nat} (h : padcheck s.din = some n) :
    exec .unpad s = finish (putBlock s.din (BitVec.ofNat 5 (16 - n)) s) := by
  simp only [exec, execUnpad, h]

theorem exec_unpad_invalid {s : State} (h : padcheck s.din = none) :
    exec .unpad s = fail .invalidPadding s := by
  simp only [exec, execUnpad, h]

/-- The data bytes before a pad of n, as OUTLEN holds their number (45_padding.md R205). -/
theorem dataBytes_toNat (n : Nat) : (BitVec.ofNat 5 (16 - n)).toNat = 16 - n := by
  rw [BitVec.toNat_ofNat]
  omega

/-- Settles O41: the padded Block byte by byte, and the check of the count. -/
theorem padFillsTheTail : Obligations.PadFillsTheTail := by
  refine fun t s => ⟨fun h => ⟨padblock s.din t.toNat, ?output, fun i hi => ?bytes⟩, fun h => ?illegal⟩
  case output => exact exec_pad h s ▸ putBlock_givesOutput _ 16#5 s
  case bytes =>
    have hpad : BitVec.ofNat 8 (16 - t.toNat) = 16#8 - t := by bv_omega
    rw [byte_padblock _ _ hi, hpad]
  case illegal => exact exec_pad_illegal h s ▸ fail_takesError _ s

/-- Settles O42: the two outcomes of `padcheck`. -/
theorem unpadChecksThePadding : Obligations.UnpadChecksThePadding := by
  refine fun s => ⟨fun n h1 h16 hbytes => ?valid, fun hnone => ?invalid⟩
  case valid =>
    have hout := putBlock_givesOutput s.din (BitVec.ofNat 5 (16 - n)) s
    rw [exec_unpad_valid ((padcheck_eq_some_iff _ n).mpr ⟨h1, h16, hbytes⟩)]
    rwa [dataBytes_toNat n] at hout
  case invalid =>
    rw [exec_unpad_invalid ((padcheck_eq_none_iff _).mpr hnone)]
    exact fail_takesError _ s

/-- UNPAD of PAD t's output gives OUTLEN = t and the first t bytes (45_padding.md R206). -/
theorem unpad_after_pad {t : Byte} {s u v : State} (ht : t.toNat ≤ 15) (hpad : exec (.pad t) s = .next u)
    (hunpad : exec .unpad { u with din := u.dout } = .next v) :
    v.err = u.err ∧ v.outlen.toNat = t.toNat ∧ ∀ i, i < t.toNat → v.dout.byte i = s.din.byte i := by
  have hdout : u.dout = padblock s.din t.toNat := by
    rw [exec_pad ht] at hpad
    cases hpad
    rfl
  have hvalid : padcheck u.dout = some (16 - t.toNat) := hdout ▸ padcheck_padblock s.din ht
  rw [exec_unpad_valid (s := { u with din := u.dout }) hvalid] at hunpad
  cases hunpad
  refine ⟨rfl, (dataBytes_toNat _).trans (by omega), fun i hi => ?_⟩
  calc u.dout.byte i = (padblock s.din t.toNat).byte i := by rw [hdout]
    _ = s.din.byte i := (byte_padblock s.din t.toNat (by omega)).trans (if_pos hi)

/-- Settles O43: the round trip of a Block, of the two commands and of a message. -/
theorem paddingRoundTrips : Obligations.PaddingRoundTrips :=
  ⟨fun b _ ht => padcheck_padblock b ht, fun _ _ _ _ => unpad_after_pad, unpad_pad⟩

end Sys2Proof.Machine

/-!
# Cipher block chaining (46_cbc.md)

A stream command ends in one of three ways: it opens a stream, it moves one block on, or it takes the last
block and closes the stream. On messages, cutting into blocks and joining are inverse to each other, so the
statements about a whole stream speak of lists of blocks: feeding them goes through the recursion of
`encryptBlocks` or `decryptBlocks`, and only the last block sees the padding.
-/

namespace Sys2Proof.Machine

/-! ## Opening a stream (46_cbc.md R224, R226, R228) -/

theorem exec_cbceInit_inStream (gen : Bool) {s : State} (hm : s.mode ≠ .idle) :
    exec (.cbceInit gen) s = fail .sequenceError s :=
  if_pos hm

theorem exec_cbceInit_noKey (gen : Bool) {s : State} (hm : s.mode = .idle) (hk : s.keyv = false) :
    exec (.cbceInit gen) s = fail .noKey s := by
  rw [exec, execCbceInit, if_neg (not_not.mpr hm), if_pos hk]

theorem exec_cbceInit_givenIv {s : State} (hm : s.mode = .idle) (hk : s.keyv = true) :
    exec (.cbceInit false) s = finish (openEncryption s) := by
  rw [exec, execCbceInit, if_neg (not_not.mpr hm), if_neg (by simp [hk]), if_neg Bool.false_ne_true]

theorem exec_cbceInit_rngFailure {s : State} (hm : s.mode = .idle) (hk : s.keyv = true)
    (ha : nextAnswer s = none) : exec (.cbceInit true) s = fail .rngFailure (afterDraw s) := by
  rw [exec, execCbceInit, if_neg (not_not.mpr hm), if_neg (by simp [hk]), if_pos rfl, rngDraw_eq, ha]

theorem exec_cbceInit_drawnIv {s : State} {v : Block} (hm : s.mode = .idle) (hk : s.keyv = true)
    (ha : nextAnswer s = some v) :
    exec (.cbceInit true) s = finish (openEncryption { afterDraw s with iv := v }) := by
  rw [exec, execCbceInit, if_neg (not_not.mpr hm), if_neg (by simp [hk]), if_pos rfl, rngDraw_eq, ha]

/-- The number of whole blocks of a message, in the core's arithmetic (46_cbc.md R224). -/
theorem wholeBlocks_toNat (l : Word) : (l / 16#32).toNat = l.toNat / 16 := BitVec.toNat_udiv

/-- The number of bytes after the whole blocks of a message, in the core's arithmetic (46_cbc.md R224). -/
theorem tailBytes_toNat (l : Word) : (l % 16#32).toNat = l.toNat % 16 := BitVec.toNat_umod

theorem openEncryption_blkrem_toNat (s : State) :
    (openEncryption s).blkrem.toNat = s.msglen.toNat / 16 + 1 := by
  rw [openEncryption_blkrem, BitVec.toNat_add, wholeBlocks_toNat]
  bv_omega

theorem openEncryption_tail_toNat (s : State) : (openEncryption s).tail.toNat = s.msglen.toNat % 16 := by
  rw [openEncryption_tail, BitVec.toNat_setWidth, tailBytes_toNat]
  omega

/-- The whole effect of opening an encryption stream on the state whose IV it takes. -/
theorem openEncryption_effect (s : State) :
    ∃ t, finish (openEncryption s) = .next t ∧ t.iv = s.iv ∧ t.chain = s.iv
      ∧ t.blkrem.toNat = s.msglen.toNat / 16 + 1 ∧ t.tail.toNat = s.msglen.toNat % 16 ∧ t.mode = .enc
      ∧ Completed t ∧ SameOutput s t ∧ StreamFrame s t ∧ SameOutside s t :=
  ⟨_, rfl, rfl, rfl, openEncryption_blkrem_toNat s, openEncryption_tail_toNat s, rfl, completed_complete _,
    ⟨rfl, rfl⟩, ⟨⟨rfl, rfl, rfl, rfl, rfl⟩, ⟨rfl, rfl⟩, ⟨rfl, rfl⟩⟩, ⟨rfl, rfl, rfl, rfl⟩⟩

/-- Settles O45: the checks in order, and the same opening on IV as the host wrote it and on the provider's
answer. -/
theorem cbceInitOpensAnEncryptionStream : Obligations.CbceInitOpensAnEncryptionStream := by
  refine fun gen s => ⟨fun hm => ?sequence, fun hm hk => ?noKey, fun hm hk hg => ?givenIv,
    fun hm hk hg => ?drawnIv⟩
  case sequence => exact exec_cbceInit_inStream gen hm ▸ fail_takesError _ s
  case noKey => exact exec_cbceInit_noKey gen hm hk ▸ fail_takesError _ s
  case givenIv =>
    rw [hg, exec_cbceInit_givenIv hm hk]
    exact openEncryption_effect s
  case drawnIv =>
    subst hg
    split
    case h_1 ha => exact exec_cbceInit_rngFailure hm hk ha ▸ fail_takesError _ (afterDraw s)
    case h_2 v ha =>
      rw [exec_cbceInit_drawnIv hm hk ha]
      exact openEncryption_effect { afterDraw s with iv := v }

/-- The length test of CBCD_INIT on numbers (46_cbc.md R228). -/
theorem ciphertextLength_refused_iff (l : Word) :
    (l = 0#32 ∨ l % 16#32 ≠ 0#32) ↔ (l.toNat = 0 ∨ l.toNat % 16 ≠ 0) := by
  rw [ne_eq, BitVec.toNat_eq, BitVec.toNat_eq, tailBytes_toNat]
  rfl

theorem exec_cbcdInit_inStream {s : State} (hm : s.mode ≠ .idle) :
    exec .cbcdInit s = fail .sequenceError s :=
  if_pos hm

theorem exec_cbcdInit_noKey {s : State} (hm : s.mode = .idle) (hk : s.keyv = false) :
    exec .cbcdInit s = fail .noKey s := by
  rw [exec, execCbcdInit, if_neg (not_not.mpr hm), if_pos hk]

theorem exec_cbcdInit_invalidLength {s : State} (hm : s.mode = .idle) (hk : s.keyv = true)
    (hl : s.msglen.toNat = 0 ∨ s.msglen.toNat % 16 ≠ 0) :
    exec .cbcdInit s = fail .invalidCiphertextLength s := by
  rw [exec, execCbcdInit, if_neg (not_not.mpr hm), if_neg (by simp [hk]),
    if_pos ((ciphertextLength_refused_iff _).mpr hl)]

theorem exec_cbcdInit_opens {s : State} (hm : s.mode = .idle) (hk : s.keyv = true)
    (h0 : 0 < s.msglen.toNat) (h16 : s.msglen.toNat % 16 = 0) :
    exec .cbcdInit s = finish { s with chain := s.iv, blkrem := s.msglen / 16#32, mode := .dec } := by
  rw [exec, execCbcdInit, if_neg (not_not.mpr hm), if_neg (by simp [hk]),
    if_neg ((ciphertextLength_refused_iff _).not.mpr (by omega))]

/-- Settles O47: the three checks in the order of 60_exceptions.md R272, and the opening when all pass. -/
theorem cbcdInitOpensADecryptionStream : Obligations.CbcdInitOpensADecryptionStream := by
  refine fun s => ⟨fun hm => ?sequence, fun hm hk => ?noKey, fun hm hk hl => ?length,
    fun hm hk h0 h16 => ?opens⟩
  case sequence => exact exec_cbcdInit_inStream hm ▸ fail_takesError _ s
  case noKey => exact exec_cbcdInit_noKey hm hk ▸ fail_takesError _ s
  case length => exact exec_cbcdInit_invalidLength hm hk hl ▸ fail_takesError _ s
  case opens =>
    rw [exec_cbcdInit_opens hm hk h0 h16]
    exact ⟨_, rfl, rfl, wholeBlocks_toNat s.msglen, rfl, rfl, completed_complete _, rfl, ⟨rfl, rfl⟩,
      ⟨⟨rfl, rfl, rfl, rfl, rfl⟩, ⟨rfl, rfl⟩, ⟨rfl, rfl⟩⟩, ⟨rfl, rfl, rfl, rfl⟩⟩

/-! ## One block of a stream (46_cbc.md R227, R229) -/

/-- What CBCE and CBCD share on a block before the final one: the result, the next chain value, and one
block fewer to come. -/
def afterBlock (out chain : Block) (s : State) : State :=
  complete { putBlock out 16#5 s with chain := chain, blkrem := s.blkrem - 1#32 }

/-- What CBCE and CBCD share on the final block: the result with the number of its bytes that count, and
the closed stream. -/
def afterFinalBlock (out chain : Block) (n : BitVec 5) (tail : BitVec 4) (s : State) : State :=
  complete { putBlock out n s with chain := chain, blkrem := 0#32, mode := .idle, tail := tail }

theorem afterBlock_frame (out chain : Block) (s : State) :
    Completed (afterBlock out chain s) ∧ SameIv s (afterBlock out chain s)
      ∧ StreamFrame s (afterBlock out chain s) ∧ SameOutside s (afterBlock out chain s) :=
  ⟨completed_complete _, rfl, ⟨⟨rfl, rfl, rfl, rfl, rfl⟩, ⟨rfl, rfl⟩, ⟨rfl, rfl⟩⟩, ⟨rfl, rfl, rfl, rfl⟩⟩

theorem afterFinalBlock_frame (out chain : Block) (n : BitVec 5) (tail : BitVec 4) (s : State) :
    Completed (afterFinalBlock out chain n tail s) ∧ SameIv s (afterFinalBlock out chain n tail s)
      ∧ StreamFrame s (afterFinalBlock out chain n tail s)
      ∧ SameOutside s (afterFinalBlock out chain n tail s) :=
  ⟨completed_complete _, rfl, ⟨⟨rfl, rfl, rfl, rfl, rfl⟩, ⟨rfl, rfl⟩, ⟨rfl, rfl⟩⟩, ⟨rfl, rfl, rfl, rfl⟩⟩

theorem afterBlock_blkrem_toNat (out chain : Block) {s : State} (h : 1 ≤ s.blkrem.toNat) :
    (afterBlock out chain s).blkrem.toNat = s.blkrem.toNat - 1 :=
  BitVec.toNat_sub_of_le h

theorem exec_cbce_outside {s : State} (hm : s.mode ≠ .enc) : exec .cbce s = fail .sequenceError s :=
  if_pos hm

theorem exec_cbce_next {s : State} (hm : s.mode = .enc) (hr : s.blkrem ≠ 1#32) :
    exec .cbce s = .next (afterBlock (cipher s.rk (s.din.xor s.chain))
      (cipher s.rk (s.din.xor s.chain)) s) := by
  have hrest : s.blkrem - 1#32 ≠ 0#32 := by bv_omega
  rw [exec, execCbce, if_neg (not_not.mpr hm)]
  simp only [if_neg hr, if_neg hrest]
  rfl

theorem exec_cbce_final {s : State} (hm : s.mode = .enc) (hr : s.blkrem = 1#32) :
    exec .cbce s
      = .next (afterFinalBlock (cipher s.rk ((padblock s.din s.tail.toNat).xor s.chain))
        (cipher s.rk ((padblock s.din s.tail.toNat).xor s.chain)) 16#5 0#4 s) := by
  rw [exec, execCbce, if_neg (not_not.mpr hm)]
  simp [hr, afterFinalBlock]

/-- Settles O46: the check of MODE, and the block before the final one apart from the final one. -/
theorem cbceEncryptsAndChains : Obligations.CbceEncryptsAndChains := by
  refine fun s => ⟨fun hm => exec_cbce_outside hm ▸ fail_takesError _ s, fun hm h1 => ?_⟩
  by_cases hr : s.blkrem = 1#32
  · have hpad : BitVec.ofNat 8 (16 - s.tail.toNat) = 16#8 - s.tail.setWidth 8 := by bv_omega
    refine ⟨_, padblock s.din s.tail.toNat, exec_cbce_final hm hr, fun i hi => ?_, rfl, rfl, rfl,
      by rw [hr]; rfl, fun _ => ⟨rfl, rfl⟩, fun hne => absurd hr hne, afterFinalBlock_frame _ _ _ _ s⟩
    rw [byte_padblock _ _ hi, hpad, ← ite_not]
    simp only [hr, true_and, not_lt]
  · exact ⟨_, s.din, exec_cbce_next hm hr, fun i _ => (if_neg fun h => hr h.1).symm, rfl, rfl, rfl,
      afterBlock_blkrem_toNat _ _ h1, fun h => absurd h hr, fun _ => ⟨hm, rfl⟩, afterBlock_frame _ _ s⟩

theorem exec_cbcd_outside {s : State} (hm : s.mode ≠ .dec) : exec .cbcd s = fail .sequenceError s :=
  if_pos hm

theorem exec_cbcd_next {s : State} (hm : s.mode = .dec) (hr : s.blkrem ≠ 1#32) :
    exec .cbcd s = .next (afterBlock ((invCipher s.rk s.din).xor s.chain) s.din s) := by
  rw [exec, execCbcd, if_neg (not_not.mpr hm)]
  exact if_neg hr

theorem exec_cbcd_invalid {s : State} (hm : s.mode = .dec) (hr : s.blkrem = 1#32)
    (hp : padcheck ((invCipher s.rk s.din).xor s.chain) = none) :
    exec .cbcd s = fail .invalidPadding s := by
  rw [exec, execCbcd, if_neg (not_not.mpr hm)]
  simp only [if_pos hr, hp]

theorem exec_cbcd_valid {s : State} {n : Nat} (hm : s.mode = .dec) (hr : s.blkrem = 1#32)
    (hp : padcheck ((invCipher s.rk s.din).xor s.chain) = some n) :
    exec .cbcd s
      = .next (afterFinalBlock ((invCipher s.rk s.din).xor s.chain) s.din (BitVec.ofNat 5 (16 - n))
        s.tail s) := by
  rw [exec, execCbcd, if_neg (not_not.mpr hm)]
  simp only [if_pos hr, hp]
  rfl

/-- Settles O48: the check of MODE, the block before the final one, and the two outcomes of `padcheck` on
the final one. -/
theorem cbcdDecryptsAndChains : Obligations.CbcdDecryptsAndChains := by
  refine fun s => ⟨fun hm => ?sequence, fun hm h2 => ?next, fun hm hr => ?final⟩
  case sequence => exact exec_cbcd_outside hm ▸ fail_takesError _ s
  case next =>
    exact ⟨_, exec_cbcd_next hm (by bv_omega), rfl, rfl, rfl, afterBlock_blkrem_toNat _ _ (by omega), hm,
      rfl, afterBlock_frame _ _ s⟩
  case final =>
    split
    case h_1 hp => exact exec_cbcd_invalid hm hr hp ▸ fail_takesError _ s
    case h_2 n hp =>
      exact ⟨_, exec_cbcd_valid hm hr hp, rfl, dataBytes_toNat n, rfl, rfl, rfl, rfl,
        afterFinalBlock_frame _ _ _ _ s⟩

/-! ## The other commands inside a stream (46_cbc.md R234) -/

/-- A command that neither opens, feeds nor closes a stream keeps it, or ends with an error. -/
theorem Ends.keepsStream {i : Instr} {s t : State} (h : Ends s i t)
    (hi : i.op ∉ [Op.keyexp, Op.cbceInit, Op.cbce, Op.cbcdInit, Op.cbcd, Op.abort]) :
    (SameStream s t ∧ SameChain s t ∧ t.err = s.err) ∨ ∃ e u, t = raise e u := by
  cases h with
  | nothing | output => exact .inl ⟨⟨rfl, rfl, rfl⟩, rfl, rfl⟩
  | errs e _ u _ => exact .inr ⟨e, u, rfl⟩
  | closes | expands | opensEnc | encryptsFinal | encryptsNext | opensDec | decryptsFinal | decryptsNext =>
    simp [Instr.op] at hi

theorem exec_keyexp_inStream (len : Byte) {s : State} (hm : s.mode ≠ .idle) :
    exec (.keyexp len) s = fail .sequenceError s := by
  rw [exec_keyexp, if_pos hm]

/-- The commands that want no open stream, inside one. -/
theorem exec_inStream_refused {i : Instr} {s : State} (hi : i.op ∈ [Op.keyexp, Op.cbceInit, Op.cbcdInit])
    (hm : s.mode ≠ .idle) : exec i s = fail .sequenceError s := by
  cases i with
  | keyexp len => exact exec_keyexp_inStream len hm
  | cbceInit gen => exact exec_cbceInit_inStream gen hm
  | cbcdInit => exact exec_cbcdInit_inStream hm
  | _ => simp [Instr.op] at hi

/-- Settles O55: the ways a command can end, for those that keep the stream, and the check of MODE for
those that are refused inside one. -/
theorem otherCommandsLeaveTheStream : Obligations.OtherCommandsLeaveTheStream := by
  refine fun i s t herr hm h => ⟨fun hi => ?others, fun hi => ?refused⟩
  case others =>
    obtain ⟨hstream, hchain, hsame⟩ | ⟨e, u, rfl⟩ := (ends_of_exec h).keepsStream hi
    · exact ⟨fun _ => ⟨hstream, hchain⟩, fun ht => by simp [hsame, herr] at ht⟩
    · exact ⟨nofun, fun _ => ⟨rfl, rfl, rfl⟩⟩
  case refused =>
    rw [exec_inStream_refused hi hm] at h
    cases h
    exact ⟨rfl, rfl⟩

end Sys2Proof.Machine

namespace Sys2Proof

/-! ## Messages and their blocks (20_memory.md R64) -/

theorem bytesOf_cons (b : Block) (bs : List Block) : bytesOf (b :: bs) = b.bytes ++ bytesOf bs := rfl

theorem bytesOf_concat (bs : List Block) (b : Block) : bytesOf (bs ++ [b]) = bytesOf bs ++ b.bytes := by
  rw [bytesOf, bytesOf, List.flatMap_append, List.flatMap_singleton]

@[simp] theorem length_bytesOf (bs : List Block) : (bytesOf bs).length = 16 * bs.length := by
  induction bs with
  | nil => rfl
  | cons b bs ih => rw [bytesOf_cons, List.length_append, bytes_length, ih, List.length_cons]; omega

theorem byte_blockAt (m : List Byte) (j : Nat) {i : Nat} (h : i < 16) :
    (blockAt m j).byte i = m.getD (16 * j + i) 0x00#8 :=
  byte_ofBytes _ i h

theorem blockAt_bytes_append_zero (b : Block) (m : List Byte) : blockAt (b.bytes ++ m) 0 = b :=
  block_eq_of_bytes fun i hi => by
    rw [byte_blockAt _ _ hi, List.getD_append _ _ _ _ (by simpa using hi), Nat.mul_zero, Nat.zero_add,
      bytes_getD b i hi]

theorem blockAt_bytes_append_succ (b : Block) (m : List Byte) (j : Nat) :
    blockAt (b.bytes ++ m) (j + 1) = blockAt m j :=
  block_eq_of_bytes fun i hi => by
    rw [byte_blockAt _ _ hi, byte_blockAt _ _ hi,
      List.getD_append_right _ _ _ _ (by rw [bytes_length]; omega), bytes_length,
      show 16 * (j + 1) + i - 16 = 16 * j + i by omega]

theorem blocksOf_bytes_append (b : Block) (m : List Byte) :
    blocksOf (b.bytes ++ m) = b :: blocksOf m := by
  have hlen : (b.bytes ++ m).length / 16 = m.length / 16 + 1 := by
    rw [List.length_append, bytes_length]
    omega
  rw [blocksOf, hlen, List.range_succ_eq_map, List.map_cons, List.map_map, blockAt_bytes_append_zero]
  exact congrArg (b :: ·) (List.map_congr_left fun j _ => blockAt_bytes_append_succ b m j)

/-- Joining blocks and cutting the message again gives the blocks back. -/
@[simp] theorem blocksOf_bytesOf (bs : List Block) : blocksOf (bytesOf bs) = bs := by
  induction bs with
  | nil => rfl
  | cons b bs ih => rw [bytesOf_cons, blocksOf_bytes_append, ih]

/-- The first block of a message holds its first 16 bytes. -/
theorem bytes_blockAt_zero {m : List Byte} (h : 16 ≤ m.length) : (blockAt m 0).bytes = m.take 16 := by
  refine List.ext_getElem (by simpa using h) fun i hi _ => ?_
  rw [bytes_length] at hi
  have him : i < m.length := by omega
  rw [← List.getD_eq_getElem _ 0x00#8, bytes_getD _ i hi, byte_blockAt _ _ hi, Nat.mul_zero, Nat.zero_add,
    List.getElem_take, List.getD_eq_getElem _ _ him]

/-- A message of n whole blocks is n blocks joined. -/
theorem exists_bytesOf_eq (n : Nat) (m : List Byte) (h : m.length = 16 * n) : ∃ bs, bytesOf bs = m := by
  induction n generalizing m with
  | zero => exact ⟨[], (List.eq_nil_of_length_eq_zero h).symm⟩
  | succ n ih =>
    obtain ⟨bs, hbs⟩ := ih (m.drop 16) (by rw [List.length_drop]; omega)
    refine ⟨blockAt m 0 :: bs, ?_⟩
    rw [bytesOf_cons, bytes_blockAt_zero (by omega), hbs, List.take_append_drop]

/-- Cutting a message of whole blocks and joining them again gives the message back. -/
theorem bytesOf_blocksOf {m : List Byte} (h : m.length % 16 = 0) : bytesOf (blocksOf m) = m := by
  obtain ⟨bs, rfl⟩ := exists_bytesOf_eq (m.length / 16) m (by omega)
  rw [blocksOf_bytesOf]

theorem exists_eq_concat {bs : List Block} {n : Nat} (h : bs.length = n + 1) :
    ∃ front last, bs = front ++ [last] :=
  ⟨_, _, (List.dropLast_append_getLast (List.ne_nil_of_length_eq_add_one h)).symm⟩

/-- A message that the length test of R221 lets pass is whole blocks with a last one. -/
theorem exists_bytesOf_concat_eq {m : List Byte} (h : ¬ (m.length = 0 ∨ m.length % 16 ≠ 0)) :
    ∃ front last, m = bytesOf (front ++ [last]) := by
  obtain ⟨bs, rfl⟩ := exists_bytesOf_eq (m.length / 16) m (by omega)
  rw [length_bytesOf] at h
  obtain ⟨front, last, rfl⟩ := exists_eq_concat (bs := bs) (n := bs.length - 1) (by omega)
  exact ⟨front, last, rfl⟩

/-! ## The padding of a message, by blocks (45_padding.md R200, R201) -/

theorem length_pad (p : List Byte) : (pad p).length = 16 * (p.length / 16 + 1) := by
  simp only [pad, List.length_append, List.length_replicate]
  omega

theorem getD_pad_data (p : List Byte) {k : Nat} (h : k < p.length) :
    (pad p).getD k 0x00#8 = p.getD k 0x00#8 :=
  List.getD_append _ _ _ _ h

theorem getD_pad_tail (p : List Byte) {k : Nat} (h : p.length ≤ k) (hk : k < 16 * (p.length / 16 + 1)) :
    (pad p).getD k 0x00#8 = BitVec.ofNat 8 (16 - p.length % 16) := by
  rw [pad, List.getD_append_right _ _ _ _ h, List.getD_replicate _ (by omega)]

/-- The padded message by blocks: whole data blocks, and a last block whose data bytes are padded, whatever
stands after them (45_padding.md R200, R202). -/
theorem blocksOf_pad {p : List Byte} {front : List Block} {last : Block}
    (hlen : front.length = p.length / 16)
    (hdata : ∀ j i, j < front.length + 1 → i < 16 → 16 * j + i < p.length →
      ((front ++ [last]).getD j Block.zero).byte i = p.getD (16 * j + i) 0x00#8) :
    blocksOf (pad p) = front ++ [padblock last (p.length % 16)] := by
  have hfront : (List.range front.length).map (blockAt (pad p)) = front := by
    refine List.ext_getElem (by simp) fun j _ hj => block_eq_of_bytes fun i hi => ?_
    rw [List.getElem_map, List.getElem_range, byte_blockAt _ _ hi, getD_pad_data p (by omega),
      ← hdata j i (by omega) hi (by omega), List.getD_append _ _ _ _ hj, List.getD_eq_getElem _ _ hj]
  have hlast : blockAt (pad p) front.length = padblock last (p.length % 16) := by
    refine block_eq_of_bytes fun i hi => ?_
    rw [byte_blockAt _ _ hi, byte_padblock _ _ hi]
    split_ifs with ht
    · rw [getD_pad_data p (by omega), ← hdata front.length i (by omega) hi (by omega),
        List.getD_append_right _ _ _ _ le_rfl, Nat.sub_self, List.getD_cons_zero]
    · exact getD_pad_tail p (by omega) (by omega)
  rw [blocksOf, length_pad, Nat.mul_div_cancel_left _ (by decide), ← hlen, List.range_succ,
    List.map_append, hfront, List.map_singleton, hlast]

/-- The last n bytes of a Block form its pad of n bytes. -/
theorem drop_bytes_eq_pad_iff (b : Block) {n : Nat} (h16 : n ≤ 16) :
    b.bytes.drop (16 - n) = List.replicate n (BitVec.ofNat 8 n)
      ↔ ∀ i, 16 - n ≤ i → i < 16 → (b.byte i).toNat = n := by
  have hdrop : b.bytes.drop (16 - n) = (List.range' (16 - n) n).map b.byte := by
    rw [Block.bytes, List.range_eq_range', ← List.map_drop, List.drop_range', Nat.sub_sub_self h16]
    simp
  simp only [hdrop, List.eq_replicate_iff, List.length_map, List.length_range', true_and,
    List.forall_mem_map, List.mem_range'_1, and_imp, Nat.sub_add_cancel h16,
    eq_ofNat_iff_toNat (show n < 256 by omega)]

/-- A padded message is unpadded by its last block (45_padding.md R201, R203). -/
theorem unpad_append_bytes (m : List Byte) (b : Block) (h : m.length % 16 = 0) :
    unpad (m ++ b.bytes) = (padcheck b).map fun n => m ++ b.bytes.take (16 - n) := by
  cases hp : padcheck b with
  | some n =>
    obtain ⟨h1, h16, hbytes⟩ := (padcheck_eq_some_iff b n).mp hp
    have hsplit : m ++ b.bytes = (m ++ b.bytes.take (16 - n)) ++ List.replicate n (BitVec.ofNat 8 n) := by
      rw [← (drop_bytes_eq_pad_iff b h16).mpr hbytes, List.append_assoc, List.take_append_drop]
    rw [hsplit]
    refine unpad_append_replicate _ h1 h16 ?_
    rw [List.length_append, List.length_take, bytes_length]
    omega
  | none =>
    have hlast : (m ++ b.bytes).getD (m.length + 16 - 1) 0x00#8 = b.byte 15 := by
      rw [List.getD_append_right _ _ _ _ (by omega), show m.length + 16 - 1 - m.length = 15 by omega,
        bytes_getD b 15 (by decide)]
    have hnone := (padcheck_eq_none_iff b).mp hp
    simp only [unpad, List.length_append, bytes_length, hlast, Option.map_none]
    rw [if_neg (by omega)]
    split_ifs with hrange hpad
    · rfl
    · rfl
    · rw [not_not, Nat.add_sub_assoc (by omega), List.drop_length_add_append] at hpad
      exact absurd ⟨_, by omega, by omega, (drop_bytes_eq_pad_iff b (by omega)).mp hpad⟩ hnone

/-! ## CBC on a message (46_cbc.md R220, R221, R232) -/

@[simp] theorem length_encryptBlocks (rk : Vector Word 60) (chain : Block) (bs : List Block) :
    (encryptBlocks rk chain bs).length = bs.length := by
  induction bs generalizing chain with
  | nil => rfl
  | cons b bs ih => rw [encryptBlocks, List.length_cons, List.length_cons, ih]

/-- Each block is decrypted with the chain value it was encrypted with: the ciphertext block before it. -/
@[simp] theorem decryptBlocks_encryptBlocks (rk : Vector Word 60) (chain : Block) (bs : List Block) :
    decryptBlocks rk chain (encryptBlocks rk chain bs) = bs := by
  induction bs generalizing chain with
  | nil => rfl
  | cons b bs ih => rw [encryptBlocks, decryptBlocks, invCipher_cipher, xor_xor_cancel, ih]

theorem decryptBlocks_concat (rk : Vector Word 60) (chain : Block) (cs : List Block) (c : Block) :
    decryptBlocks rk chain (cs ++ [c])
      = decryptBlocks rk chain cs ++ [(invCipher rk c).xor (cs.getLastD chain)] := by
  induction cs generalizing chain with
  | nil => rfl
  | cons b cs ih =>
    rw [List.cons_append, decryptBlocks, ih, decryptBlocks, List.getLastD_cons, List.cons_append]

/-- The padding of a decrypted message is that of its last block (46_cbc.md R221, R229). -/
theorem unpad_decryptBlocks_concat (rk : Vector Word 60) (chain : Block) (cs : List Block) (c : Block) :
    unpad (bytesOf (decryptBlocks rk chain (cs ++ [c])))
      = (padcheck ((invCipher rk c).xor (cs.getLastD chain))).map fun n =>
        bytesOf (decryptBlocks rk chain cs)
          ++ ((invCipher rk c).xor (cs.getLastD chain)).bytes.take (16 - n) := by
  rw [decryptBlocks_concat, bytesOf_concat,
    unpad_append_bytes _ _ (by rw [length_bytesOf, Nat.mul_mod_right])]

theorem length_cbcEncrypt (key : Key) (iv : Block) (p : List Byte) :
    (cbcEncrypt key iv p).length = 16 * (p.length / 16 + 1) := by
  rw [cbcEncrypt, length_bytesOf, length_encryptBlocks, blocksOf, List.length_map, List.length_range,
    length_pad, Nat.mul_div_cancel_left _ (by decide)]

/-- Settles O51: the blocks come back by `decryptBlocks_encryptBlocks`, and they are those of the padded
message. -/
theorem cbcRoundTrip : Obligations.CbcRoundTrip := by
  intro key iv p
  have hpad : (pad p).length % 16 = 0 := by rw [length_pad, Nat.mul_mod_right]
  have hblocks :
      bytesOf (decryptBlocks (keyExpansion key) iv (blocksOf (cbcEncrypt key iv p))) = pad p := by
    rw [cbcEncrypt, blocksOf_bytesOf, decryptBlocks_encryptBlocks, bytesOf_blocksOf hpad]
  rw [cbcDecrypt, length_cbcEncrypt, if_neg (by omega), hblocks, unpad_pad]

end Sys2Proof

namespace Sys2Proof.Machine

/-! ## A whole stream (46_cbc.md R230, R231) -/

theorem afterBlock_blkrem_of_succ (out chain : Block) {s : State} {n : Nat} (h : s.blkrem.toNat = n + 1) :
    (afterBlock out chain s).blkrem.toNat = n := by
  rw [afterBlock_blkrem_toNat _ _ (by omega), h, Nat.add_sub_cancel]

theorem feed_cons {i : Instr} {b : Block} {bs : List Block} {s t u : State}
    {outs : List (Block × BitVec 5)} (ht : exec i { s with din := b } = .next t)
    (hu : feed i bs t = some (outs, u)) : feed i (b :: bs) s = some ((t.dout, t.outlen) :: outs, u) := by
  simp only [feed, ht, hu]

/-- What the host reads from whole blocks of output. -/
theorem readOut_wholeBlocks (bs : List Block) : readOut (bs.map (·, 16#5)) = bytesOf bs := by
  induction bs with
  | nil => rfl
  | cons b bs ih =>
    rw [bytesOf_cons, ← ih, List.map_cons, readOut, List.flatMap_cons]
    exact congrArg (· ++ _) (List.take_of_length_le (bytes_length b).le)

/-- What the host reads from whole blocks of output and one that counts n bytes. -/
theorem readOut_concat (bs : List Block) (b : Block) (n : BitVec 5) :
    readOut (bs.map (·, 16#5) ++ [(b, n)]) = bytesOf bs ++ b.bytes.take n.toNat := by
  rw [← readOut_wholeBlocks bs, readOut, readOut, List.flatMap_append, List.flatMap_singleton]

/-- CBCE once per block of an open encryption stream, up to and including the final block. -/
theorem feed_cbce (front : List Block) (last : Block) (s : State) (hm : s.mode = .enc)
    (hr : s.blkrem.toNat = front.length + 1) :
    ∃ u, feed .cbce (front ++ [last]) s
        = some ((encryptBlocks s.rk s.chain (front ++ [padblock last s.tail.toNat])).map (·, 16#5), u)
      ∧ u.mode = .idle ∧ u.err = s.err
      ∧ some u.chain
        = (encryptBlocks s.rk s.chain (front ++ [padblock last s.tail.toNat])).getLast? := by
  induction front generalizing s with
  | nil =>
    have hlast : s.blkrem = 1#32 := BitVec.eq_of_toNat_eq hr
    exact ⟨_, feed_cons (exec_cbce_final (s := { s with din := last }) hm hlast) rfl, rfl, rfl, rfl⟩
  | cons b front ih =>
    rw [List.length_cons] at hr
    have hnext : s.blkrem ≠ 1#32 := by bv_omega
    obtain ⟨u, hfeed, hmode, herr, hchain⟩ :=
      ih (afterBlock (cipher s.rk (b.xor s.chain)) (cipher s.rk (b.xor s.chain)) { s with din := b }) hm
        (afterBlock_blkrem_of_succ _ _ hr)
    refine ⟨u, feed_cons (exec_cbce_next (s := { s with din := b }) hm hnext) hfeed, hmode, herr, ?_⟩
    rw [List.cons_append, encryptBlocks, List.getLast?_cons]
    exact congrArg (fun o => some (o.getD (cipher s.rk (b.xor s.chain)))) hchain

/-- What the final CBCD leaves in `u`, by its decrypted block `p`, where ERR was `err` before it
(46_cbc.md R229). -/
structure EndsDecryption (err : Bool) (p : Block) (u : State) : Prop where
  invalid : padcheck p = none → u.errcode = some .invalidPadding
  valid : ∀ n, padcheck p = some n →
    u.err = err ∧ u.mode = .idle ∧ u.dout = p ∧ u.outlen.toNat = 16 - n

theorem exec_cbcd_ends {s : State} (hm : s.mode = .dec) (hr : s.blkrem = 1#32) :
    ∃ u, exec .cbcd s = .next u ∧ EndsDecryption s.err ((invCipher s.rk s.din).xor s.chain) u := by
  cases hp : padcheck ((invCipher s.rk s.din).xor s.chain) with
  | none => exact ⟨_, exec_cbcd_invalid hm hr hp, fun _ => rfl, fun n hn => by simp [hp] at hn⟩
  | some n =>
    refine ⟨_, exec_cbcd_valid hm hr hp, fun h => by simp [hp] at h, fun k hk => ?_⟩
    obtain rfl : n = k := Option.some.inj (hp.symm.trans hk)
    exact ⟨rfl, rfl, rfl, dataBytes_toNat n⟩

/-- CBCD once per block of an open decryption stream, up to and including the final block. -/
theorem feed_cbcd (front : List Block) (last : Block) (s : State) (hm : s.mode = .dec)
    (hr : s.blkrem.toNat = front.length + 1) :
    ∃ u, feed .cbcd (front ++ [last]) s
        = some ((decryptBlocks s.rk s.chain front).map (·, 16#5) ++ [(u.dout, u.outlen)], u)
      ∧ EndsDecryption s.err ((invCipher s.rk last).xor (front.getLastD s.chain)) u := by
  induction front generalizing s with
  | nil =>
    have hlast : s.blkrem = 1#32 := BitVec.eq_of_toNat_eq hr
    obtain ⟨u, hstep, hend⟩ := exec_cbcd_ends (s := { s with din := last }) hm hlast
    exact ⟨u, feed_cons hstep rfl, hend⟩
  | cons b front ih =>
    rw [List.length_cons] at hr
    have hnext : s.blkrem ≠ 1#32 := by bv_omega
    obtain ⟨u, hfeed, hend⟩ :=
      ih (afterBlock ((invCipher s.rk b).xor s.chain) b { s with din := b }) hm
        (afterBlock_blkrem_of_succ _ _ hr)
    rw [List.getLastD_cons]
    exact ⟨u, feed_cons (exec_cbcd_next (s := { s with din := b }) hm hnext) hfeed, hend⟩

/-- What CBCE_INIT leaves when it opens the stream, on either form of GEN (46_cbc.md R226). -/
theorem cbceInit_opened {gen : Bool} {s t : State} (hm : s.mode = .idle) (hk : s.keyv = true)
    (h : exec (.cbceInit gen) s = .next t) (henc : t.mode = .enc) :
    t.rk = s.rk ∧ t.chain = t.iv ∧ t.blkrem.toNat = s.msglen.toNat / 16 + 1
      ∧ t.tail.toNat = s.msglen.toNat % 16 := by
  cases gen with
  | false =>
    rw [exec_cbceInit_givenIv hm hk] at h
    cases h
    exact ⟨rfl, rfl, openEncryption_blkrem_toNat s, openEncryption_tail_toNat s⟩
  | true =>
    cases ha : nextAnswer s with
    | none =>
      rw [exec_cbceInit_rngFailure hm hk ha] at h
      cases h
      exact nomatch henc
    | some v =>
      rw [exec_cbceInit_drawnIv hm hk ha] at h
      cases h
      exact ⟨rfl, rfl, openEncryption_blkrem_toNat { afterDraw s with iv := v },
        openEncryption_tail_toNat { afterDraw s with iv := v }⟩

/-- What CBCD_INIT leaves when it opens the stream (46_cbc.md R228). -/
theorem cbcdInit_opened {s t : State} (hm : s.mode = .idle) (hk : s.keyv = true) (h0 : 0 < s.msglen.toNat)
    (h16 : s.msglen.toNat % 16 = 0) (h : exec .cbcdInit s = .next t) :
    t.rk = s.rk ∧ t.chain = s.iv ∧ t.err = s.err ∧ t.mode = .dec
      ∧ t.blkrem.toNat = s.msglen.toNat / 16 := by
  rw [exec_cbcdInit_opens hm hk h0 h16] at h
  cases h
  exact ⟨rfl, rfl, rfl, rfl, wholeBlocks_toNat s.msglen⟩

/-- Settles O49: the opening, and then the blocks one by one; they are those of the padded plaintext. -/
theorem encryptionStreamComputesCbc : Obligations.EncryptionStreamComputesCbc := by
  intro gen s s1 key p bs hk hrk hlen hm hopen henc hbs hdata
  obtain ⟨hrk1, hchain1, hblkrem1, htail1⟩ := cbceInit_opened hm hk hopen henc
  obtain ⟨front, last, rfl⟩ := exists_eq_concat hbs
  rw [List.length_append, List.length_singleton] at hbs hdata
  have hblocks : blocksOf (cbcEncrypt key s1.iv p)
      = encryptBlocks s1.rk s1.chain (front ++ [padblock last s1.tail.toNat]) := by
    rw [cbcEncrypt, blocksOf_bytesOf, blocksOf_pad (by omega) hdata, hrk1, hrk, hchain1, htail1, hlen]
  have hbytes : cbcEncrypt key s1.iv p = bytesOf (blocksOf (cbcEncrypt key s1.iv p)) := by
    rw [bytesOf_blocksOf (by rw [length_cbcEncrypt, Nat.mul_mod_right])]
  obtain ⟨s2, hfeed, hmode, herr, hlast⟩ := feed_cbce front last s1 henc (by omega)
  rw [← hblocks] at hfeed hlast
  refine ⟨_, s2, hfeed, ?_, ?_, hmode, herr, hlast⟩
  · rw [List.map_map]
    exact List.map_id _
  · rw [readOut_wholeBlocks, ← hbytes]

/-- Settles O50: the length test is that of CBCD_INIT, and the padding is found in the last block. -/
theorem decryptionStreamComputesCbc : Obligations.DecryptionStreamComputesCbc := by
  intro s s1 key c hk hrk hlen hm herr _ hinit
  by_cases hc : c.length = 0 ∨ c.length % 16 ≠ 0
  · rw [cbcDecrypt, if_pos hc]
    rw [exec_cbcdInit_invalidLength hm hk (hlen ▸ hc)] at hinit
    cases hinit
    rfl
  · obtain ⟨hrk1, hchain1, herr1, hdec, hblkrem1⟩ := cbcdInit_opened hm hk (by omega) (by omega) hinit
    obtain ⟨front, last, rfl⟩ := exists_bytesOf_concat_eq hc
    rw [length_bytesOf, List.length_append, List.length_singleton] at hlen
    obtain ⟨u, hfeed, hend⟩ := feed_cbcd front last s1 hdec (by omega)
    rw [hrk1, hrk, hchain1] at hfeed hend
    rw [herr1, herr] at hend
    rw [cbcDecrypt, if_neg hc, blocksOf_bytesOf, unpad_decryptBlocks_concat]
    cases hp : padcheck ((invCipher (keyExpansion key) last).xor (front.getLastD s.iv)) with
    | none => exact ⟨_, u, hfeed, hend.invalid hp, rfl⟩
    | some n =>
      obtain ⟨herr', hmode, hdout, houtlen⟩ := hend.valid n hp
      refine ⟨_, u, hfeed, herr', hmode, ?_⟩
      rw [readOut_concat, hdout, houtlen]

end Sys2Proof.Machine

/-!
# The control commands (47_control.md)

Words with OP 00 or 01 that set another field are no commands, and what NOP and ABORT write on every state.
-/

namespace Sys2Proof

/-- Bits 31:8 of an encoded word. -/
theorem extractLsb'_enc (op f1 f2 : Byte) :
    (enc op f1 f2).extractLsb' 8 24 = (0x00#8 ++ f2 ++ f1 : BitVec 24) :=
  BitVec.extractLsb'_append_eq_left

/-- NOP and ABORT take no operand: a word with their OP that decodes is 0 in bits 31:8. -/
theorem operandBits_eq_zero_of_decode {w : Word} {i : Instr} (hop : opField w = 0x00#8 ∨ opField w = 0x01#8)
    (h : decode w = .ok i) : w.extractLsb' 8 24 = 0#24 := by
  obtain ⟨-, hcode, -⟩ := fields_of_decode h
  rw [hcode] at hop
  have hf1 : i.f1 = 0x00#8 := f1_eq_zero (by rcases hop with hop | hop <;> simp [hop])
  have hf2 : i.f2 = 0x00#8 := f2_eq_zero (by rcases hop with hop | hop <;> simp [hop])
  calc w.extractLsb' 8 24
    _ = (encode i).extractLsb' 8 24 := by rw [(decodedWordIsTheEncodedCommand w i h).2]
    _ = 0x00#8 ++ i.f2 ++ i.f1 := extractLsb'_enc _ _ _
    _ = 0#24 := by rw [hf1, hf2]; rfl

theorem decode_control_refused {w : Word} (hop : opField w = 0x00#8 ∨ opField w = 0x01#8)
    (hbits : w.extractLsb' 8 24 ≠ 0#24) : ∃ why, decode w = .error why := by
  cases h : decode w with
  | ok i => exact absurd (operandBits_eq_zero_of_decode hop h) hbits
  | error why => exact ⟨why, rfl⟩

end Sys2Proof

namespace Sys2Proof.Machine

theorem exec_nop (s : State) : exec .nop s = finish s := rfl

theorem exec_abort (s : State) :
    exec .abort s = finish { s with mode := .idle, blkrem := 0#32, tail := 0#4 } := rfl

/-- Completion's bookkeeping writes no field of the output frame. -/
theorem complete_outputFrame (s : State) : OutputFrame s (complete s) :=
  ⟨⟨rfl, rfl, rfl, rfl, rfl⟩, rfl, ⟨rfl, rfl⟩, ⟨rfl, rfl, rfl⟩, rfl, ⟨rfl, rfl⟩, ⟨rfl, rfl, rfl, rfl⟩⟩

/-- Settles O27: NOP's rule is completion's bookkeeping alone. -/
theorem nopChangesNothing : Obligations.NopChangesNothing :=
  ⟨encodedCommandDecodesToItself .nop rfl, fun _ hbits hop => decode_control_refused (.inl hop) hbits,
    fun s => ⟨complete s, exec_nop s, completed_complete s, ⟨rfl, rfl⟩, complete_outputFrame s⟩⟩

/-- Settles O28: ABORT's rule writes MODE, BLKREM and TAIL, and then does completion's bookkeeping. -/
theorem abortClosesTheStream : Obligations.AbortClosesTheStream := by
  refine ⟨encodedCommandDecodesToItself .abort rfl,
    fun _ hbits hop => decode_control_refused (.inr hop) hbits, fun s => ?_⟩
  exact ⟨_, exec_abort s, rfl, rfl, rfl, completed_complete _, ⟨rfl, rfl⟩, ⟨rfl, rfl, rfl, rfl, rfl⟩, rfl,
    ⟨rfl, rfl⟩, rfl, ⟨rfl, rfl⟩, ⟨rfl, rfl, rfl, rfl⟩⟩

end Sys2Proof.Machine

/-!
# Errors, rejected writes and the interrupt output (60_exceptions.md)

The two ways a command ends as far as ERR is concerned, the writes that are rejected as a property of the
register they reach, and the cycle in which a command completes.
-/

namespace Sys2Proof.Machine

/-! ## Errors (60_exceptions.md R260, R270) -/

/-- A command leaves ERR and ERRCODE alone, or it raises an error that the table lists it for, on the state
as it was but for the RNG provider it asked. -/
theorem Ends.error_cases {i : Instr} {s t : State} (h : Ends s i t) :
    SameError s t
      ∨ ∃ e u, mayRaise i e ∧ (u = s ∨ (i = .cbceInit true ∧ u = afterDraw s)) ∧ t = raise e u := by
  cases h with
  | errs e he u hu => exact .inr ⟨e, u, he, hu, rfl⟩
  | opensEnc gen hm hk u hu => obtain rfl | ⟨v, rfl⟩ := hu <;> exact .inl ⟨rfl, rfl⟩
  | nothing | closes | output | expands | encryptsFinal | encryptsNext | opensDec | decryptsFinal
  | decryptsNext => exact .inl ⟨rfl, rfl⟩

/-- Settles O53: a command that sets ERR has ended by `raise`. -/
theorem errorsCommitOnlyTheErrorState : Obligations.ErrorsCommitOnlyTheErrorState := by
  intro i s t hs hx ht
  obtain ⟨herr, -⟩ | ⟨e, u, -, hu, rfl⟩ := (ends_of_exec hx).error_cases
  · simp [herr, hs] at ht
  · exact ⟨e, u, hu, hx ▸ fail_takesError e u⟩

/-- Settles O54: the code a command leaves is the one it has raised. -/
theorem errorsAreRaisedOnlyWhereListed : Obligations.ErrorsAreRaisedOnlyWhereListed := by
  refine ⟨rfl, fun i s t e hs hx ht => ?_⟩
  obtain ⟨-, hcode⟩ | ⟨e', u, he, -, rfl⟩ := (ends_of_exec hx).error_cases
  · simp [hcode, hs] at ht
  · obtain rfl : e' = e := by simpa using ht
    exact he

/-! ## Clearing the flags (10_state.md R25, 60_exceptions.md R271) -/

/-- The write that clears ERR alone returns from the error and does nothing else. -/
theorem hostWrite_status_clearErr (s : State) : hostWrite 0x0C#8 0x4#32 s = clearError s := by
  rw [(hostWritesFollowThePrecedence s 0x4#32).1]
  simp [clearError]

/-- Settles O26: the CMD write by its two conditions, before ERR is cleared and after. -/
theorem clearingTheErrorReadmitsCommands : Obligations.ClearingTheErrorReadmitsCommands := by
  intro s v hb he
  obtain ⟨n, hissue⟩ := (acceptedCommandIsIssued (clearError s) v).1 hb rfl
  rw [hostWrite_status_clearErr, hissue]
  exact ⟨(acceptedCommandIsIssued s v).2 (.inr he), rfl, rfl, rfl, rfl⟩

/-! ## The interrupt output (60_exceptions.md R280) -/

theorem irq_eq_true_iff (s : State) :
    irq s = true ↔ (s.done = true ∧ s.ctrl.doneie = true) ∨ (s.err = true ∧ s.ctrl.errie = true) := by
  simp [irq]

theorem irq_of_flags_clear {s : State} (hd : s.done = false) (he : s.err = false) : irq s = false := by
  simp [irq, hd, he]

theorem irq_of_flags_set {s : State} (hd : s.done = true) (he : s.err = true) :
    irq s = (s.ctrl.doneie || s.ctrl.errie) := by
  simp [irq, hd, he]

/-- Settles O22: the write of 0x6 clears both flags, an issue clears DONE while ERR is clear, and every
completion sets DONE and keeps CTRL. -/
theorem irqFollowsDoneAndErr : Obligations.IrqFollowsDoneAndErr := by
  refine ⟨rfl, fun s => ⟨irq_eq_true_iff s, ?cleared, fun v hb he => ?issued, fun i t hx ht => ?failed⟩⟩
  case cleared =>
    rw [(hostWritesFollowThePrecedence s 0x6#32).1]
    exact irq_of_flags_clear (Bool.and_false _) (Bool.and_false _)
  case issued =>
    obtain ⟨n, hissue⟩ := (acceptedCommandIsIssued s v).1 hb he
    rw [hissue]
    exact irq_of_flags_clear rfl he
  case failed =>
    obtain ⟨u, hu, -, hdone, -⟩ := exec_completes i s
    obtain rfl : u = t := by rw [hu] at hx; injection hx
    obtain ⟨⟨hctrl, -⟩, -⟩ := commandsNeverWriteHostRegisters i s u hu
    rw [irq_of_flags_set hdone ht, hctrl]

/-! ## Rejected writes (60_exceptions.md R276) -/

/-- A host write to register `r` is rejected in state `s`: CMD while BUSY or ERR, an operand register while
BUSY. -/
def Rejects (s : State) (r : Reg) : Prop :=
  (r = .cmd ∧ (s.busy = true ∨ s.err = true)) ∨ (r.operand = true ∧ s.busy = true)

theorem Rejects.not_readOnly {s : State} {r : Reg} (h : Rejects s r) : r.readOnly = false := by
  obtain ⟨rfl, -⟩ | ⟨hop, -⟩ := h
  · rfl
  · cases r with
    | msglen | key | iv | din => rfl
    | id | version | ctrl | status | errcode | cmd | blkrem | outlen | chain | dout => cases hop

theorem writeReg_of_rejects {s : State} {r : Reg} (h : Rejects s r) (v : Word) :
    writeReg r v s = rejectWrite s := by
  obtain ⟨rfl, hcmd⟩ | ⟨hop, hb⟩ := h
  · exact (hostWrite_offset .cmd v s).symm.trans ((acceptedCommandIsIssued s v).2 hcmd)
  · exact writeReg_operand_busy hop v hb

/-- No write but a rejected one sets REJECT. -/
theorem reject_of_writeReg {s : State} {r : Reg} (h : ¬ Rejects s r) {v : Word}
    (hv : (writeReg r v s).reject = true) : s.reject = true := by
  obtain ⟨hcmd, hop⟩ := not_or.mp h
  cases r with
  | status =>
    have hwrite : writeReg .status v s = writeStatus v s := rfl
    rw [hwrite, writeStatus_eq] at hv
    exact (Bool.and_eq_true_iff.mp hv).1
  | ctrl => exact hv
  | id | version | errcode | blkrem | outlen | chain | dout =>
    rwa [writeReg_readOnly rfl] at hv
  | cmd =>
    obtain ⟨hb, he⟩ : s.busy = false ∧ s.err = false := by simpa using hcmd
    obtain ⟨n, hissue⟩ := (acceptedCommandIsIssued s v).1 hb he
    have hwrite : writeReg .cmd v s = _ := (hostWrite_offset .cmd v s).symm.trans hissue
    rwa [hwrite] at hv
  | msglen | key | iv | din =>
    have hb : s.busy = false := by simpa [Reg.operand] using hop
    rwa [writeReg_operand_idle rfl v hb] at hv

/-- The offsets of the operand registers: MSGLEN, KEY and IV, and DIN (10_state.md R20). -/
def OperandOffset (off : BitVec 8) : Prop :=
  off = 0x18#8 ∨ (0x40 ≤ off.toNat ∧ off.toNat < 0x70 ∧ off.toNat % 4 = 0)
    ∨ (0x80 ≤ off.toNat ∧ off.toNat < 0x90 ∧ off.toNat % 4 = 0)

/-- A word of a register group stands at the group's first offset plus four times its number. -/
theorem groupOffset_eq (off : BitVec 8) {base : Nat} (hbase : base ≤ off.toNat)
    (hbase4 : base % 4 = 0) (hoff4 : off.toNat % 4 = 0) :
    BitVec.ofNat 8 base + BitVec.ofNat 8 (4 * ((off.toNat - base) / 4)) = off := by
  have hsum : base + 4 * ((off.toNat - base) / 4) = off.toNat := by omega
  rw [← BitVec.ofNat_add, hsum, BitVec.ofNat_toNat, BitVec.setWidth_eq]

theorem operandOffset_iff (off : BitVec 8) :
    OperandOffset off ↔ ∃ r : Reg, r.offset = off ∧ r.operand = true := by
  constructor
  · rintro (rfl | ⟨hlo, hhi, h4⟩ | ⟨hlo, hhi, h4⟩)
    · exact ⟨.msglen, rfl, rfl⟩
    · obtain hkey | hiv := Nat.lt_or_ge off.toNat 0x60
      · exact ⟨.key ⟨(off.toNat - 0x40) / 4, by omega⟩, groupOffset_eq off hlo rfl h4, rfl⟩
      · exact ⟨.iv ⟨(off.toNat - 0x60) / 4, by omega⟩, groupOffset_eq off hiv rfl h4, rfl⟩
    · exact ⟨.din ⟨(off.toNat - 0x80) / 4, by omega⟩, groupOffset_eq off hlo rfl h4, rfl⟩
  · rintro ⟨r, rfl, hop⟩
    have hall : ∀ r ∈ Reg.all, r.operand = true → OperandOffset r.offset := by
      unfold OperandOffset
      decide
    exact hall r (mem_all r) hop

/-- The offsets at which writes are rejected are those of the registers that reject them. -/
theorem rejects_at_iff (s : State) (off : BitVec 8) :
    (off = 0x14#8 ∧ (s.busy = true ∨ s.err = true)) ∨ (OperandOffset off ∧ s.busy = true)
      ↔ ∃ r : Reg, r.offset = off ∧ Rejects s r := by
  constructor
  · rintro (⟨rfl, hcmd⟩ | ⟨hoff, hb⟩)
    · exact ⟨.cmd, rfl, .inl ⟨rfl, hcmd⟩⟩
    · obtain ⟨r, hr, hop⟩ := (operandOffset_iff off).mp hoff
      exact ⟨r, hr, .inr ⟨hop, hb⟩⟩
  · rintro ⟨r, rfl, ⟨rfl, hcmd⟩ | ⟨hop, hb⟩⟩
    · exact .inl ⟨rfl, hcmd⟩
    · exact .inr ⟨(operandOffset_iff _).mpr ⟨r, rfl, hop⟩, hb⟩

/-- The offsets of the read-only registers, and those at which no register stands (10_state.md R20). -/
theorem regAt_readOnly_or_unmapped {off : BitVec 8}
    (h : off ∈ [0x00#8, 0x04#8, 0x10#8, 0x1C#8, 0x20#8, 0x70#8, 0x74#8, 0x78#8, 0x7C#8, 0x90#8, 0x94#8,
        0x98#8, 0x9C#8] ∨ (0x24 ≤ off.toNat ∧ off.toNat < 0x40) ∨ 0xA0 ≤ off.toNat) :
    (regAt off).all Reg.readOnly = true := by
  obtain hlist | hgap := h
  · revert off
    decide
  · rw [regAt_unmapped hgap]
    rfl

/-- Settles O19: the rejected writes as a property of the register an offset reaches. A register that
ignores writes is not among them, and an offset without a register has none. -/
theorem rejectedWritesSetOnlyReject : Obligations.RejectedWritesSetOnlyReject := by
  intro s off v operand rejected
  have hiff : rejected ↔ ∃ r : Reg, r.offset = off ∧ Rejects s r := rejects_at_iff s off
  rw [hiff]
  refine ⟨?rejected, fun hnot hset => ?accepted, fun hoff => ?ignored⟩
  case rejected =>
    rintro ⟨r, rfl, hr⟩
    have hwrite := writeReg_of_rejects hr v
    have hphase := hostPhase_writeOf r v s
    rw [hwrite] at hphase
    exact ⟨(hostWrite_offset r v s).trans hwrite, hphase⟩
  case accepted =>
    cases hreg : regAt off with
    | none => rwa [hostWrite_ignored (by rw [hreg]; rfl)] at hset
    | some r =>
      rw [hostWrite_at r (offset_of_regAt hreg).symm] at hset
      exact reject_of_writeReg (fun hr => hnot ⟨r, offset_of_regAt hreg, hr⟩) hset
  case ignored =>
    have hignored := regAt_readOnly_or_unmapped hoff
    refine ⟨?_, hostWrite_ignored hignored v s⟩
    rintro ⟨r, rfl, hr⟩
    rw [regAt_offset, Option.all_some, hr.not_readOnly] at hignored
    cases hignored

/-! ## The completing cycle (60_exceptions.md R281) -/

theorem cycleInput_of_inputs {s : State} {c : Cycle} {rest : List Cycle} (h : s.inputs = c :: rest) :
    cycleInput s = c := by
  rw [cycleInput, h, List.headD_cons]

/-- A completion keeps the registers of the host, whatever the pending word is. -/
theorem runPending_sameHostRegs {s t : State} (h : runPending s = .next t) : SameHostRegs s t := by
  cases hw : s.pending with
  | none => simp [runPending, hw] at h
  | some w =>
    obtain ⟨i, -, hi⟩ | ⟨why, -, hf⟩ := runPending_cases hw
    · exact (commandsNeverWriteHostRegisters i s t (hi ▸ h)).1
    · rw [hf] at h
      cases h
      exact ⟨rfl, rfl, rfl, rfl, rfl⟩

/-- A running command whose last cycle is not one of reset completes in it, on the state that this cycle's
host transaction leaves. -/
theorem step_completes {s : State} (h : Inv s) (hb : s.busy = true) (hl : s.latLeft ≤ 1)
    (hr : (cycleInput s).reset = false) :
    ∃ t, step s = .next t ∧ Completed t
      ∧ SameHostRegs (hostPhase (cycleInput s).access (popInput s)) t := by
  obtain ⟨-, -, hpend⟩ := h.busyIsClean hb
  obtain ⟨w, hw⟩ := Option.isSome_iff_exists.mp hpend
  have hw' := (hostPhase_keeps_pending (s := popInput s) hb (cycleInput s).access).trans hw
  obtain ⟨t, ht, hcomp⟩ := runPending_completes hw'
  exact ⟨t, (step_of_due h.neverTruncated hr hb hl).trans ht, hcomp, runPending_sameHostRegs ht⟩

/-- Settles O10: the completion follows the transaction, whose CMD write finds BUSY = 1; a cycle of reset
leaves the reset state. -/
theorem sameCycleTransactionComesFirst : Obligations.SameCycleTransactionComesFirst := by
  intro s rest v h hb hl
  refine ⟨fun hin => ?statusWrite, fun hin => ?cmdWrite, fun a hin => ?reset⟩
  case statusWrite =>
    obtain ⟨t, ht, ⟨hbusy, hdone, -⟩, -⟩ := step_completes h hb hl.le (by rw [cycleInput_of_inputs hin])
    exact ⟨t, ht, hdone, hbusy⟩
  case cmdWrite =>
    obtain ⟨t, ht, ⟨hbusy, hdone, hpend, -⟩, -, hreject, -⟩ :=
      step_completes h hb hl.le (by rw [cycleInput_of_inputs hin])
    have hphase := ((rejectedWritesSetOnlyReject (popInput s) 0x14#8 v).1 (.inl ⟨rfl, .inl hb⟩)).2
    rw [cycleInput_of_inputs hin, hphase] at hreject
    exact ⟨t, ht, hdone, hbusy, hpend, hreject⟩
  case reset =>
    exact ⟨_, step_of_reset h.neverTruncated (by rw [cycleInput_of_inputs hin]), rfl, rfl, rfl, rfl⟩

end Sys2Proof.Machine

/-!
# Reset, hazards and timing (70_reset_and_hazards.md)

What reset leaves, the cycles of a running command before the one that completes it, and the poll of the
WAIT loop; from them the statements about the time a command takes.
-/

namespace Sys2Proof.Machine

/-! ## Issue (10_state.md R48) -/

/-- A CMD write that finds neither a running command nor an error issues its word. -/
theorem writeReg_cmd_accepted (v : Word) {s : State} (hb : s.busy = false) (he : s.err = false) :
    writeReg .cmd v s = issue v s := by
  simp [writeReg, Reg.readOnly, hb, he]

theorem hostWrite_cmd_accepted (v : Word) {s : State} (hb : s.busy = false) (he : s.err = false) :
    hostWrite 0x14#8 v s = issue v s :=
  (hostWrite_offset .cmd v s).trans (writeReg_cmd_accepted v hb he)

/-! ## Reset (70_reset_and_hazards.md R300, R301) -/

/-- Settles O12. -/
theorem stateAfterResetIsReady : Obligations.StateAfterResetIsReady := by
  refine ⟨inv_resetEvent State.reset, rfl, rfl, rfl, rfl, fun w => ?_⟩
  rw [writeReg_cmd_accepted w rfl rfl]
  exact ⟨rfl, rfl, rfl⟩

@[simp] theorem word_zero (k : Nat) : Block.zero.word k = 0#32 := by
  match k with
  | 0 | 1 | 2 | _ + 3 => rfl

theorem words_zero_getD (n : Nat) : Key.zero.words.getD n 0#32 = 0#32 :=
  List.getD_eq_getElem?_getD.trans (List.getElem?_getD_replicate_default_eq _ 8 n)

theorem roundKeys_zero_getD (n : Nat) :
    (Vector.replicate 60 (0#32 : Word)).toList.getD n 0#32 = 0#32 := by
  rw [Vector.toList_replicate, List.getD_eq_getElem?_getD, List.getElem?_getD_replicate_default_eq]

/-- Settles O11: a cycle of reset leaves `resetEvent`, whose registers are those of the reset state. -/
theorem resetClearsEverything : Obligations.ResetClearsEverything := by
  intro s a rest hc hin
  refine ⟨_, step_of_reset hc (by rw [cycleInput_of_inputs hin]), rfl, rfl, rfl, rfl, rfl, rfl, rfl, rfl,
    ?status, rfl, rfl, rfl, rfl, words_zero_getD, fun k => ?blocks, roundKeys_zero_getD, rfl, rfl,
    hostRead_offset _ .id, hostRead_offset _ .version, ?coming, rfl, rfl⟩
  case status => exact (by decide : statusWord State.reset = 0#32)
  case blocks => exact ⟨word_zero k, word_zero k, word_zero k, word_zero k⟩
  case coming => rw [resetEvent_inputs, popInput, hin, List.tail_cons]

/-! ## Latency (70_reset_and_hazards.md R320, R322) -/

/-- The latency of a command that asks nothing of the RNG provider. -/
theorem commandLatency_of_ok {w : Word} {i : Instr} (h : decode w = .ok i) (hi : i ≠ .cbceInit true)
    (draws : Nat) : commandLatency w draws = Config.latency (some i.op) := by
  simp [commandLatency, h, hi]

theorem commandLatency_of_error {w : Word} {why : Illegal} (h : decode w = .error why)
    (draws : Nat) : commandLatency w draws = Config.latency none := by
  simp [commandLatency, h]

/-- Settles O58: an accepted word is issued with its `commandLatency`, which is `Config.latency` of the
decoded command but for the provider's wait. -/
theorem latencyDependsOnTheDecodedCommandOnly : Obligations.LatencyDependsOnTheDecodedCommandOnly := by
  intro s t v w hbs hes hbt het
  have hs : (hostWrite 0x14#8 v s).latLeft = commandLatency v s.rngDraws := by
    rw [hostWrite_cmd_accepted v hbs hes, issue_latLeft]
  have ht (u : Word) : (hostWrite 0x14#8 u t).latLeft = commandLatency u t.rngDraws := by
    rw [hostWrite_cmd_accepted u hbt het, issue_latLeft]
  simp only [hs, ht]
  refine ⟨fun i j hi hj hop hni hnj => ?command, fun a b ha hb => ?illegal, fun hdraws => by rw [hdraws],
    one_le_commandLatency v s.rngDraws⟩
  case command => rw [commandLatency_of_ok hi hni, commandLatency_of_ok hj hnj, hop]
  case illegal => rw [commandLatency_of_error ha, commandLatency_of_error hb]

/-! ## The cycles of a running command before its last -/

/-- `Waits k s t`: the command that runs in `s` has run on for `k` cycles in `t`. Of the core only CTRL, the
flags DONE, ERR and REJECT, and ERRCODE may differ; the count is `k` lower. -/
def Waits (k : Nat) (s t : State) : Prop :=
  ∃ c d e r x y, t = { s with
    ctrl := c, done := d, err := e, reject := r, errcode := x, resp := y
    latLeft := s.latLeft - k, inputs := s.inputs.drop k }

theorem Waits.refl (s : State) : Waits 0 s s := ⟨_, _, _, _, _, _, rfl⟩

theorem Waits.trans {j k : Nat} {s t u : State} (h : Waits j s t) (h' : Waits k t u) :
    Waits (j + k) s u := by
  obtain ⟨_, _, _, _, _, _, rfl⟩ := h
  obtain ⟨c, d, e, r, x, y, rfl⟩ := h'
  exact ⟨c, d, e, r, x, y, by simp only [List.drop_drop, Nat.sub_sub]⟩

/-- A cycle that is neither the command's last nor one of reset. -/
theorem waits_of_step {s t : State} (hb : s.busy = true) (hl : 1 < s.latLeft)
    (hr : (cycleInput s).reset = false) (h : step s = .next t) : Waits 1 s t := by
  obtain ⟨hr', -⟩ | ⟨-, hb', -⟩ | ⟨-, -, -, rfl⟩ | ⟨-, -, hl', -⟩ := step_cases h
  · simp [hr] at hr'
  · simp [hb] at hb'
  · obtain ⟨c, d, e, r, x, y, hp⟩ := hostPhase_busy (s := popInput s) hb (cycleInput s).access
    exact ⟨c, d, e, r, x, y, by rw [hp, popInput, List.drop_one]⟩
  · omega

/-- No cycle of the next `k` is one of reset. -/
def NoReset (k : Nat) (s : State) : Prop := ∀ c ∈ s.inputs.take k, c.reset = false

theorem NoReset.now {k : Nat} {s : State} (h : NoReset (k + 1) s) : (cycleInput s).reset = false := by
  cases hin : s.inputs with
  | nil => rw [cycleInput, hin]; rfl
  | cons c rest =>
    rw [cycleInput_of_inputs hin]
    exact h c (by simp [hin])

theorem NoReset.of_le {j k : Nat} {s : State} (h : NoReset k s) (hjk : j ≤ k) : NoReset j s :=
  fun c hc => h c (List.take_subset_take_left _ hjk hc)

theorem NoReset.after {j k : Nat} {s t : State} (h : NoReset (j + k) s) (hw : Waits j s t) :
    NoReset k t := by
  obtain ⟨_, _, _, _, _, _, rfl⟩ := hw
  intro c hc
  exact h c (List.take_add ▸ List.mem_append_right _ hc)

/-! ## Runs -/

section Run
variable {M : Host.Core} {k : Nat} {s t u : M.State}

/-- A run, by its first step. -/
theorem run_succ (h : M.step s = .next t) : M.run (k + 1) s = M.run k t := by
  rw [Host.Core.run, h]

/-- A run that answers a next state has made its first step. -/
theorem step_of_run (h : M.run (k + 1) s = .next u) : ∃ t, M.step s = .next t ∧ M.run k t = .next u := by
  cases hs : M.step s with
  | next t => exact ⟨t, rfl, (run_succ hs).symm.trans h⟩
  | fault r => simp [Host.Core.run, hs] at h
  | refused r => simp [Host.Core.run, hs] at h

/-- A run, by its last step. -/
theorem run_succ_last (h : M.run k s = .next t) (hu : M.step t = .next u) :
    M.run (k + 1) s = .next u := by
  induction k generalizing s with
  | zero =>
    cases h
    exact run_succ hu
  | succ k ih =>
    obtain ⟨s', hs, hrun⟩ := step_of_run h
    exact (run_succ hs).trans (ih hrun)

end Run

/-- A run from a state that meets the invariant never stops, and keeps it. -/
theorem run_of_inv (k : Nat) {s : State} (h : Inv s) : ∃ t, core.run k s = .next t ∧ Inv t := by
  induction k generalizing s with
  | zero => exact ⟨s, rfl, h⟩
  | succ k ih =>
    obtain ⟨t, ht⟩ := invariantStatesNeverStop s h
    obtain ⟨u, hu, hinv⟩ := ih (everyStepKeepsTheInvariant s t h ht)
    exact ⟨u, (run_succ ht).trans hu, hinv⟩

/-- A run that ends before the running command's last cycle. -/
theorem waits_of_run {k : Nat} {s t : State} (hb : s.busy = true) (hk : k < s.latLeft)
    (hr : NoReset k s) (h : core.run k s = .next t) : Waits k s t := by
  induction k generalizing s with
  | zero =>
    cases h
    exact Waits.refl t
  | succ k ih =>
    obtain ⟨u, hu, hrun⟩ := step_of_run h
    have hw : Waits 1 s u := waits_of_step hb (by omega) hr.now hu
    have hrest : NoReset k u := (hr.of_le (Nat.add_comm 1 k).le).after hw
    have hwaits : Waits k u t := by
      obtain ⟨_, _, _, _, _, _, rfl⟩ := hw
      exact ih hb (by simp only; omega) hrest hrun
    exact Nat.add_comm k 1 ▸ hw.trans hwaits

/-- Settles O8: `Waits` names what may differ, and no operand is among it. -/
theorem operandsAreFrozenWhileBusy : Obligations.OperandsAreFrozenWhileBusy := by
  intro s t k hb hk hr h
  obtain ⟨_, _, _, _, _, _, rfl⟩ := waits_of_run hb hk hr h
  exact ⟨hb, rfl, rfl, rfl, rfl, rfl, rfl, rfl, ⟨rfl, rfl, rfl⟩, ⟨rfl, rfl⟩, ⟨rfl, rfl⟩⟩

/-- A running command with `n + 1` cycles left completes in the last of them. -/
theorem run_completes {n : Nat} {s : State} (h : Inv s) (hb : s.busy = true) (hl : s.latLeft = n + 1)
    (hr : NoReset (n + 1) s) : ∃ t, core.run (n + 1) s = .next t ∧ Completed t := by
  obtain ⟨u, hu, hinv⟩ := run_of_inv n h
  have hw : Waits n s u := waits_of_run hb (by omega) (hr.of_le (Nat.le_succ n)) hu
  have hlast : (cycleInput u).reset = false := (hr.after hw).now
  have hdue : u.busy = true ∧ u.latLeft ≤ 1 := by
    obtain ⟨_, _, _, _, _, _, rfl⟩ := hw
    exact ⟨hb, by simp only; omega⟩
  obtain ⟨t, ht, hcomp, -⟩ := step_completes hinv hdue.1 hdue.2 hlast
  exact ⟨t, run_succ_last hu ht, hcomp⟩

/-- The state after the cycle in which an idle core has taken the command word `w`, with `rest` to come. -/
def afterCmdWrite (w : Word) (rest : List Cycle) (s : State) : State :=
  { issue w s with inputs := rest, resp := some .ack }

theorem step_cmdWrite {s : State} {w : Word} {rest : List Cycle} (h : Inv s) (hb : s.busy = false)
    (he : s.err = false) (hin : s.inputs = ⟨false, some ⟨0x14#8, .bits32, .write w⟩⟩ :: rest) :
    step s = .next (afterCmdWrite w rest s) := by
  have hpop : popInput s = { s with inputs := rest } := by rw [popInput, hin, List.tail_cons]
  have hphase : hostPhase (some (writeOf .cmd w)) { s with inputs := rest } = afterCmdWrite w rest s := by
    rw [hostPhase_writeOf, writeReg_cmd_accepted (s := { s with inputs := rest }) w hb he]
    rfl
  rw [step_of_idle h.neverTruncated (by rw [cycleInput_of_inputs hin]) hb, cycleInput_of_inputs hin, hpop]
  exact congrArg Host.Outcome.next hphase

/-- Settles O9: the issuing cycle, then the cycles that only count, then the one that completes. -/
theorem commandCompletesLatencyCyclesAfterIssue : Obligations.CommandCompletesLatencyCyclesAfterIssue := by
  intro s w rest h hb he hin hr
  have hissue := step_cmdWrite h hb he hin
  have hinv : Inv (afterCmdWrite w rest s) := everyStepKeepsTheInvariant _ _ h hissue
  have hnoReset : NoReset (commandLatency w s.rngDraws) (afterCmdWrite w rest s) := hr
  refine ⟨fun k hk1 hk => ?busy, ?completes⟩
  case busy =>
    obtain ⟨j, rfl⟩ := Nat.exists_eq_add_of_le' hk1
    obtain ⟨u, hu, -⟩ := run_of_inv j hinv
    obtain ⟨hbusy, hpend, -⟩ := operandsAreFrozenWhileBusy (afterCmdWrite w rest s) u j rfl hk
      (hnoReset.of_le (Nat.le_of_succ_le hk)) hu
    exact ⟨u, (run_succ hissue).trans hu, hbusy, hpend⟩
  case completes =>
    obtain ⟨n, hn⟩ := Nat.exists_eq_add_of_le' (one_le_commandLatency w s.rngDraws)
    obtain ⟨t, ht, hbusy, hdone, hpend, -⟩ := run_completes hinv rfl hn (hn ▸ hnoReset)
    exact ⟨t, (run_succ hissue).trans (hn ▸ ht), hbusy, hdone, hpend⟩

/-! ## The WAIT loop (30_encoding.md R90, 70_reset_and_hazards.md R314) -/

/-- The state in which the coming cycle is a poll of STATUS. -/
def polling (s : State) : State := { s with inputs := [⟨false, some (readOf .status)⟩] }

theorem Inv.polling {s : State} (h : Inv s) : Inv (polling s) := { h with }

/-- WAIT, by its first poll. -/
theorem waitIdle_succ {s t : State} (h : step (polling s) = .next t) (n : Nat) :
    waitIdle (n + 1) s = if sawIdle t then some t else waitIdle n t := by
  rw [waitIdle, show step { s with inputs := [⟨false, some (readOf .status)⟩] } = .next t from h]

/-- A poll reads BUSY as it stands before the cycle's sequencer acts (20_memory.md R70). -/
theorem sawIdle_poll (s : State) : sawIdle (hostPhase (some (readOf .status)) s) = !s.busy := by
  rw [hostPhase_readOf]
  exact congrArg (!·) (getLsbD_statusWord s 0)

/-- A poll brings a running command one cycle nearer its end, and reads BUSY = 0 only after it. -/
theorem poll_of_busy {s : State} (h : Inv s) (hb : s.busy = true) :
    ∃ t, step (polling s) = .next t ∧ Inv t ∧ t.latLeft = s.latLeft - 1
      ∧ (sawIdle t = true → t.busy = false) := by
  obtain hl | hl := Nat.lt_or_ge 1 s.latLeft
  · have ht := step_of_counting h.polling.neverTruncated rfl hb hl
    refine ⟨_, ht, everyStepKeepsTheInvariant _ _ h.polling ht, rfl, fun hsaw => ?_⟩
    have hread := (sawIdle_poll (popInput (polling s))).symm.trans hsaw
    simp [popInput, polling, hb] at hread
  · obtain ⟨t, ht, ⟨hbusy, -, -, hlat⟩, -⟩ := step_completes h.polling hb hl rfl
    exact ⟨t, ht, everyStepKeepsTheInvariant _ _ h.polling ht, by omega, fun _ => hbusy⟩

/-- A poll of an idle core ends the loop. -/
theorem waitIdle_of_idle {s : State} (h : Inv s) (hb : s.busy = false) (n : Nat) :
    ∃ t, waitIdle (n + 1) s = some t ∧ t.busy = false := by
  have ht := step_of_idle h.polling.neverTruncated rfl hb
  have hsaw := sawIdle_poll (popInput (polling s))
  refine ⟨_, (waitIdle_succ ht n).trans (if_pos (hsaw.trans (by simp [popInput, polling, hb]))), ?_⟩
  exact (congrArg State.busy (hostPhase_readOf .status (popInput (polling s)))).trans hb

/-- No cycle is counted exactly when no command runs. -/
theorem Inv.latLeft_eq_zero_iff {s : State} (h : Inv s) : s.latLeft = 0 ↔ s.busy = false := by
  have hcount := h.countIsLive
  cases hb : s.busy with
  | false => simpa [hb] using hcount
  | true =>
    rw [if_pos hb] at hcount
    simp only [Bool.true_eq_false, iff_false]
    omega

/-- Settles O59: by induction on the cycles the running command has left. -/
theorem waitLoopEnds : Obligations.WaitLoopEnds := by
  intro s h
  generalize hn : s.latLeft = n
  induction n generalizing s with
  | zero => exact waitIdle_of_idle h (h.latLeft_eq_zero_iff.mp hn) 0
  | succ n ih =>
    have hb : s.busy = true := by
      rw [← Bool.not_eq_false, ← h.latLeft_eq_zero_iff]
      omega
    obtain ⟨t, ht, hinv, hlat, hsaw⟩ := poll_of_busy h hb
    rw [waitIdle_succ ht]
    split_ifs with hseen
    · exact ⟨t, rfl, hsaw hseen⟩
    · exact ih t hinv (by omega)

end Sys2Proof.Machine
